-- ==== Sys2Proof/Word.lean ====
section
/-! DEFINITION. The one word of the block: every port register, status snapshot, data byte and request header is 8 bits wide
(00_scope.md R8, 20_memory.md R53). -/

namespace Sys2Proof

/-- A byte; bit 0 is the least significant bit (00_scope.md R13). -/
abbrev Byte := BitVec 8

end Sys2Proof
end

