-- ==== Sys2Proof/Config.lean ====
section
/-! DEFINITION. The implementation parameters of 00_scope.md R9 to R12 and the free values. Every meaning takes the
parameters from the state's field `cfg` (log 1), so a statement about every state is one about every value of them. -/

namespace Sys2Proof

/-- The parameters of 00_scope.md R9 to R12. -/
structure Config where
  /-- `P_BASE`, the base address of the transceiver's register block. -/
  base : Nat
  /-- `P_OFF_HOLD`. -/
  offHold : Nat
  /-- `P_OFF_CTRLA`. -/
  offCtrla : Nat
  /-- `P_OFF_CMD`. -/
  offCmd : Nat
  /-- `P_OFF_STATUS`. -/
  offStatus : Nat
  /-- `P_OFF_BAUD`. -/
  offBaud : Nat
  /-- `P_OFF_ADDR`. -/
  offAddr : Nat
  /-- `P_OFF_DATA`. -/
  offData : Nat
  /-- `P_POS_RIF`, the read interrupt flag's bit of STATUS. -/
  posRif : Nat
  /-- `P_POS_WIF`, the write interrupt flag's bit. -/
  posWif : Nat
  /-- `P_POS_CLKHOLD`, the clock-hold bit. -/
  posClkHold : Nat
  /-- `P_POS_RXACK`, the received-acknowledge bit (1 = NACK). -/
  posRxAck : Nat
  /-- `P_POS_ARBLOST`, the arbitration-lost bit, used only when `arbAlias` is false. -/
  posArbLost : Nat
  /-- `P_POS_BUSERR`, the bus-error bit. -/
  posBusErr : Nat
  /-- `P_POS_BUSSTATE`, the low bit of the two-bit bus-state field. -/
  posBusState : Nat
  /-- `P_ARB_ALIAS`: when true, `arbitration_lost` reads bit `P_POS_RXACK`. -/
  arbAlias : Bool
  /-- `P_MAX_LEN`: a transfer's length is below it (R9). -/
  maxLen : Nat
  /-- `P_QUIESCE_READS`, 0 allowed (R10). -/
  quiesceReads : Nat
  /-- `P_HOLD`, what `configure` writes to HOLD (R11). -/
  hold : Byte
  /-- `P_BAUD`, what `configure` writes to BAUD (R11). -/
  baud : Byte
  deriving DecidableEq, Repr

/-- `P_BASE`, which the spec leaves OPEN (R12). FREE VALUE (log 2). -/
opaque Config.openBase : Nat

/-- `P_MAX_LEN` less one, which the spec leaves OPEN (R9). FREE VALUE (log 2). -/
opaque Config.openMaxLenPred : Nat

/-- `P_QUIESCE_READS`, which the spec leaves OPEN (R10). FREE VALUE (log 2). -/
opaque Config.openQuiesceReads : Nat

/-- `P_HOLD`, which the spec leaves OPEN (R11). FREE VALUE (log 2). -/
opaque Config.openHold : Byte

/-- `P_BAUD`, which the spec leaves OPEN (R11). FREE VALUE (log 2). -/
opaque Config.openBaud : Byte

/-- The byte the environment answers port read number `n` with, where no answer stands in the state: any value in
0..255, possibly different at every read (20_memory.md R57). FREE VALUE (log 4). -/
opaque Config.portDraw : Nat → Byte

/-- The byte the port register at an address holds after reset number `n`, until the controller writes it: any value,
since the reset values of the port registers are unspecified (10_state.md R44, 70_reset_and_hazards.md R221).
FREE VALUE (log 5). -/
opaque Config.portReset : Nat → Nat → Byte

/-- The default layout of R12 with the OPEN parameters free (log 2). -/
def Config.default : Config where
  base := Config.openBase
  offHold := 0x00
  offCtrla := 0x03
  offCmd := 0x04
  offStatus := 0x05
  offBaud := 0x06
  offAddr := 0x07
  offData := 0x08
  posRif := 7
  posWif := 6
  posClkHold := 5
  posRxAck := 4
  posArbLost := 3
  posBusErr := 2
  posBusState := 0
  arbAlias := true
  maxLen := Config.openMaxLenPred + 1
  quiesceReads := Config.openQuiesceReads
  hold := Config.openHold
  baud := Config.openBaud

/-- The seven register offsets of R12. -/
def Config.offsets (c : Config) : List Nat :=
  [c.offHold, c.offCtrla, c.offCmd, c.offStatus, c.offBaud, c.offAddr, c.offData]

/-- The single-bit status positions in use: `P_POS_ARBLOST` only when it is not aliased (R12). -/
def Config.flagPositions (c : Config) : List Nat :=
  [c.posRif, c.posWif, c.posClkHold, c.posRxAck, c.posBusErr] ++ (if c.arbAlias then [] else [c.posArbLost])

/-- What R12 requires of the layout: distinct offsets; distinct status positions in 0..7 that do not meet the two-bit
bus-state field; and a length bound that admits the empty transfer (R9: lengths are `0 .. P_MAX_LEN-1`). -/
def Config.wf (c : Config) : Bool :=
  decide c.offsets.Nodup && decide c.flagPositions.Nodup && c.flagPositions.all (fun p => decide (p < 8)) &&
    decide (c.posBusState + 1 < 8) &&
    c.flagPositions.all (fun p => decide (p ≠ c.posBusState) && decide (p ≠ c.posBusState + 1)) && decide (0 < c.maxLen)

end Sys2Proof
end

