-- ==== Sys2Proof/Syntax.lean ====
section
/-! DEFINITION. The names of the block and its instructions: one constructor of `Instr` for every row of
spec/opcode_table.json. A row is one thing that can pass over one of the block's channels (30_encoding.md R70): a request
(REQ), a result (RES), an output of the status decoder on a status byte (STATUS), or a byte written to CMD, ADDR or CTRLA
(CMD, ADDRB, CTRLW). -/

namespace Sys2Proof

/-- The transceiver's seven registers (10_state.md R26). -/
inductive PortReg where
  | hold | ctrla | cmd | status | baud | addr | data
  deriving DecidableEq, Repr

/-- The direction bit of an address byte: 0 = write, 1 = read (30_encoding.md R88). -/
inductive Dir where
  | write | read
  deriving DecidableEq, Repr

/-- "the slave's acknowledgement of the most recent byte" (00_scope.md R16). -/
inductive AckKind where
  | ack | nack
  deriving DecidableEq, Repr

/-- The four bus states (00_scope.md R16). -/
inductive BusState where
  | unknown | idle | owner | busy
  deriving DecidableEq, Repr

/-- What `bus_state` returns (40_status_decoder.md R101): a state, or `Err(BusError)`. -/
inductive BusStateResult where
  | ok (b : BusState)
  | busError
  deriving DecidableEq, Repr

/-- What `CLASSIFY` returns (41_bus_primitives.md R128). -/
inductive Verdict where
  | proceed | nack | arbLost
  deriving DecidableEq, Repr

/-- The MCMD field of CMD (10_state.md R29). -/
inductive Mcmd where
  | noAct | repStart | recvTrans | stop
  deriving DecidableEq, Repr

/-- TransactionError (00_scope.md R16, 60_exceptions.md R190). -/
inductive TxError where
  | nack
  | partialTransmit (index : Nat)
  | arbitrationLost
  deriving DecidableEq, Repr

/-- The result of a request (10_state.md R21). -/
inductive TxResult where
  | ok
  | err (e : TxError)
  deriving DecidableEq, Repr

/-- The six formats (30_encoding.md R70). -/
inductive Format where
  | req | res | status | cmd | addrB | ctrlW
  deriving DecidableEq, Repr

/-- The output of the decoder that is asked for (40_status_decoder.md R101, R103 to R107). -/
inductive Query where
  | busState | readInterruptFlag | writeInterruptFlag | ackState | clockHeld | arbitrationLost
  deriving DecidableEq, Repr

/-- The operands that follow the header of a WRITE or a READ (30_encoding.md R71, R72): ADDR, LEN, and LEN bytes, which are
a write's data or the contents of a read's buffer. -/
structure Operands where
  addr : Byte
  len : Nat
  bytes : List Byte
  deriving DecidableEq, Repr

/-- What the requester presents on the request interface: a header byte and its operands, none for CONFIGURE (R71). -/
structure Request where
  header : Byte
  operands : Option Operands
  deriving DecidableEq, Repr

/-- What passes over one of the block's channels, as its format carries it (30_encoding.md R70). A status byte stands with
the output it is asked for, since one byte has several outputs at once (R81), and a CTRLA write with its place, at a
request's entry or exit, since the two rows of CTRLW share their bytes (R90; log 11). -/
inductive Message where
  | req (r : Request)
  | res (code : Byte) (index : Nat)
  | status (q : Query) (s : Byte)
  | cmd (v : Byte)
  | addrB (v : Byte)
  | ctrlEntry (v : Byte)
  | ctrlExit (v : Byte)
  deriving DecidableEq, Repr

/-- The format a message has. -/
def Message.format : Message → Format
  | .req _ => .req
  | .res _ _ => .res
  | .status _ _ => .status
  | .cmd _ => .cmd
  | .addrB _ => .addrB
  | .ctrlEntry _ => .ctrlW
  | .ctrlExit _ => .ctrlW

/-- Why a message decodes to no instruction. -/
inductive DecodeError where
  /-- OP in 3..7, or a header bit above 2 set (30_encoding.md R73). -/
  | reservedHeader
  /-- CONFIGURE with operands, or WRITE or READ without (R71; log 13). -/
  | operandForm
  /-- LEN is not below `P_MAX_LEN` (R71; log 13). -/
  | tooLong
  /-- The bytes handed over are not LEN many (R71, R72; log 13). -/
  | lengthMismatch
  /-- A result code above 3 (R74). -/
  | reservedResult
  /-- An index with a result that carries none, or one not below `P_MAX_LEN` (R74). -/
  | strayIndex
  /-- The output asked for is false on this byte, and a false output has no row (R81). -/
  | outputFalse
  /-- A command the block does not define: 0x05 to 0xFF (R86). -/
  | reservedCommand
  /-- A CTRLA write at entry with ENABLE clear (R90). -/
  | enableClear
  deriving DecidableEq, Repr

/-- The instructions: one constructor per row of spec/opcode_table.json, in the table's order. -/
inductive Instr where
  /-- CONFIGURE (42_transactions.md R152). -/
  | configure
  /-- WRITE (R161): the address argument and the bytes to send; LEN is how many. -/
  | write (addr : Byte) (data : List Byte)
  /-- READ (R170): the address argument and the requester's buffer; LEN is its length. -/
  | read (addr : Byte) (buffer : List Byte)
  /-- RES_OK (30_encoding.md R74). -/
  | resOk
  /-- RES_NACK (60_exceptions.md R191). -/
  | resNack
  /-- RES_PARTIAL_TRANSMIT (60_exceptions.md R192). -/
  | resPartialTransmit (index : Nat)
  /-- RES_ARBITRATION_LOST (60_exceptions.md R193). -/
  | resArbitrationLost
  /-- bus_state=Err(BusError) (40_status_decoder.md R101), on the status byte `s`; so for the ten rows below. -/
  | busStateBusError (s : Byte)
  | busStateUnknown (s : Byte)
  | busStateIdle (s : Byte)
  | busStateOwner (s : Byte)
  | busStateBusy (s : Byte)
  /-- read_interrupt_flag=true (R103). -/
  | readInterruptFlag (s : Byte)
  /-- write_interrupt_flag=true (R104). -/
  | writeInterruptFlag (s : Byte)
  /-- clock_held=true (R106). -/
  | clockHeld (s : Byte)
  /-- ack_state=Nack (R105). -/
  | ackStateNack (s : Byte)
  /-- ack_state=Ack (R105). -/
  | ackStateAck (s : Byte)
  /-- arbitration_lost=true with `P_ARB_ALIAS` true (R107). -/
  | arbitrationLostAliased (s : Byte)
  /-- arbitration_lost=true with `P_ARB_ALIAS` false (R107). -/
  | arbitrationLostSeparate (s : Byte)
  /-- RESPOND_ACK (41_bus_primitives.md R129). -/
  | respondAck
  /-- RESPOND_NACK (R129). -/
  | respondNack
  /-- RECV_NEXT (R130). -/
  | recvNext
  /-- STOP (R132). -/
  | stop
  /-- REPSTART (R133). -/
  | repStart
  /-- ADDR_WRITE (R125): the seven address bits. -/
  | addrWrite (a : BitVec 7)
  /-- ADDR_READ (R125). -/
  | addrRead (a : BitVec 7)
  /-- EN_SET (R121): bits 7:1 of the saved CTRLA byte. -/
  | enSet (e : BitVec 7)
  /-- EN_RESTORE (R122): the saved CTRLA byte. -/
  | enRestore (e : Byte)
  deriving DecidableEq, Repr

/-- The format of an instruction's row in the opcode table. -/
def Instr.format : Instr → Format
  | .configure => .req
  | .write _ _ => .req
  | .read _ _ => .req
  | .resOk => .res
  | .resNack => .res
  | .resPartialTransmit _ => .res
  | .resArbitrationLost => .res
  | .busStateBusError _ => .status
  | .busStateUnknown _ => .status
  | .busStateIdle _ => .status
  | .busStateOwner _ => .status
  | .busStateBusy _ => .status
  | .readInterruptFlag _ => .status
  | .writeInterruptFlag _ => .status
  | .clockHeld _ => .status
  | .ackStateNack _ => .status
  | .ackStateAck _ => .status
  | .arbitrationLostAliased _ => .status
  | .arbitrationLostSeparate _ => .status
  | .respondAck => .cmd
  | .respondNack => .cmd
  | .recvNext => .cmd
  | .stop => .cmd
  | .repStart => .cmd
  | .addrWrite _ => .addrB
  | .addrRead _ => .addrB
  | .enSet _ => .ctrlW
  | .enRestore _ => .ctrlW

end Sys2Proof
end

