-- ==== Sys2Proof/Machine/Flags.lean ====
section
/-! DEFINITION. The bus status decoder (40_status_decoder.md): pure functions of one status byte, and `CLASSIFY`
(41_bus_primitives.md R128), which is one too. -/

namespace Sys2Proof.Machine

/-- `s[p]`, one bit of a status byte (00_scope.md R13). -/
def statusBit (s : Byte) (p : Nat) : Bool := s.getLsbD p

/-- `s[P_POS_BUSSTATE+1 : P_POS_BUSSTATE]` (30_encoding.md R80). -/
def busStateField (c : Config) (s : Byte) : BitVec 2 := s.extractLsb' c.posBusState 2

/-- The table of the two-bit field: an explicit decode, exhaustive over its four values (40_status_decoder.md R101, R102). -/
def decodeBusState (f : BitVec 2) : BusState :=
  if f = 0 then .unknown else if f = 1 then .idle else if f = 2 then .owner else .busy

/-- `bus_state(s)` (R101): the error bit is inspected first. -/
def busState (c : Config) (s : Byte) : BusStateResult :=
  if statusBit s c.posBusErr then .busError else .ok (decodeBusState (busStateField c s))

/-- `read_interrupt_flag(s)` (R103). -/
def rif (c : Config) (s : Byte) : Bool := statusBit s c.posRif

/-- `write_interrupt_flag(s)` (R104). -/
def wif (c : Config) (s : Byte) : Bool := statusBit s c.posWif

/-- `ack_state(s)` (R105). -/
def ackState (c : Config) (s : Byte) : AckKind := if statusBit s c.posRxAck then .nack else .ack

/-- `clock_held(s)` (R106). -/
def clockHeld (c : Config) (s : Byte) : Bool := statusBit s c.posClkHold

/-- `arbitration_lost(s)` (R107): bit RXACK when `P_ARB_ALIAS`, else bit ARBLOST. -/
def arbitrationLost (c : Config) (s : Byte) : Bool :=
  if c.arbAlias then statusBit s c.posRxAck else statusBit s c.posArbLost

/-- `CLASSIFY(s)` (41_bus_primitives.md R128), its tests in the order of 60_exceptions.md R196. The machine makes the same
tests one by one (Machine/Settle.lean); a statement says that the two agree. -/
def classify (c : Config) (s : Byte) : Verdict :=
  if ackState c s = .nack then .nack
  else if arbitrationLost c s then .arbLost
  else if clockHeld c s then .proceed
  else .arbLost

end Sys2Proof.Machine
end

