-- ==== Sys2Proof/Machine/Operands.lean ====
section
/-! DEFINITION. The operand forms of 30_encoding.md: header, result code, command, address and CTRLA bytes, and where a
register lies in the port. -/

namespace Sys2Proof.Machine

/-- The offset parameter of a register (10_state.md R26). -/
def regOffset (c : Config) : PortReg → Nat
  | .hold => c.offHold
  | .ctrla => c.offCtrla
  | .cmd => c.offCmd
  | .status => c.offStatus
  | .baud => c.offBaud
  | .addr => c.offAddr
  | .data => c.offData

/-- The address of a register: `P_BASE + P_OFF_r` (00_scope.md R14). -/
def regAddr (c : Config) (r : PortReg) : Nat := c.base + regOffset c r

/-- The MCMD field's value (10_state.md R29). -/
def mcmdBits : Mcmd → BitVec 2
  | .noAct => 0
  | .repStart => 1
  | .recvTrans => 2
  | .stop => 3

/-- The ACKACT field's value: 0 = ACK, 1 = NACK (10_state.md R29). -/
def ackActBit : AckKind → BitVec 1
  | .ack => 0
  | .nack => 1

/-- `cmd(ackact, mcmd)`: the command byte, bits 7:3 zero (30_encoding.md R85). -/
def cmdByte (ackact : BitVec 1) (mcmd : BitVec 2) : Byte :=
  (ackact.zeroExtend 8 <<< 2) ||| mcmd.zeroExtend 8

/-- The direction bit (30_encoding.md R88). -/
def dirBit : Dir → BitVec 1
  | .write => 0
  | .read => 1

/-- `addr_byte(a, rw) = ((a << 1) mod 256) | rw` (30_encoding.md R88); bit 7 of `a` falls off. -/
def addrByte (a : Byte) (rw : Dir) : Byte := (a <<< 1) ||| (dirBit rw).zeroExtend 8

/-- Seven address bits with the direction bit below them: `a[6:0] ++ rw` (30_encoding.md R88). -/
def addrByteOf7 (a : BitVec 7) (rw : Dir) : Byte := a ++ dirBit rw

/-- The CTRLA byte written at entry: `saved_en | 0x01` (30_encoding.md R90). -/
def enableByte (savedEn : Byte) : Byte := savedEn ||| 0x01

/-- The STATUS byte `configure` writes: Idle in the bus-state field, 0 elsewhere (10_state.md R41). -/
def forceIdleByte (c : Config) : Byte := (1 : Byte) <<< c.posBusState

/-- The request header's OP of CONFIGURE, WRITE and READ with bits 7:3 zero (30_encoding.md R71). -/
def headerConfigure : Byte := 0x00
/-- WRITE's header (R71). -/
def headerWrite : Byte := 0x01
/-- READ's header (R71). -/
def headerRead : Byte := 0x02

/-- Whether a length is one of `0 .. P_MAX_LEN-1` (00_scope.md R9). That range starts at 0, so 0 is always in it (log 2). -/
def lengthFits (c : Config) (n : Nat) : Bool := n == 0 || decide (n < c.maxLen)

/-- The result code RC in bits 1:0, bits 7:2 zero (30_encoding.md R74). -/
def resultCode : TxResult → Byte
  | .ok => 0
  | .err .nack => 1
  | .err (.partialTransmit _) => 2
  | .err .arbitrationLost => 3

/-- INDEX: meaningful only with PartialTransmit, 0 otherwise (30_encoding.md R74). -/
def resultIndex : TxResult → Nat
  | .ok => 0
  | .err .nack => 0
  | .err (.partialTransmit k) => k
  | .err .arbitrationLost => 0

end Sys2Proof.Machine
end

