-- ==== Sys2Proof/WellFormed.lean ====
section
/-! DEFINITION. Which terms of `Instr` stand for a message of their row's format: lengths and indices below `P_MAX_LEN`
(00_scope.md R9), and status bytes that match their row's pattern (30_encoding.md R81). -/

namespace Sys2Proof

open Machine in
/-- The well-formed instructions under the parameters `c`. -/
def Instr.wf (c : Config) : Instr → Bool
  | .configure => true
  | .write _ data => lengthFits c data.length
  | .read _ buffer => lengthFits c buffer.length
  | .resOk => true
  | .resNack => true
  | .resPartialTransmit k => lengthFits c k
  | .resArbitrationLost => true
  | .busStateBusError s => busState c s == .busError
  | .busStateUnknown s => busState c s == .ok .unknown
  | .busStateIdle s => busState c s == .ok .idle
  | .busStateOwner s => busState c s == .ok .owner
  | .busStateBusy s => busState c s == .ok .busy
  | .readInterruptFlag s => rif c s
  | .writeInterruptFlag s => wif c s
  | .clockHeld s => Machine.clockHeld c s
  | .ackStateNack s => ackState c s == .nack
  | .ackStateAck s => ackState c s == .ack
  | .arbitrationLostAliased s => c.arbAlias && arbitrationLost c s
  | .arbitrationLostSeparate s => !c.arbAlias && arbitrationLost c s
  | .respondAck => true
  | .respondNack => true
  | .recvNext => true
  | .stop => true
  | .repStart => true
  | .addrWrite _ => true
  | .addrRead _ => true
  | .enSet _ => true
  | .enRestore _ => true

end Sys2Proof
end

