-- ==== Sys2Proof/Decode.lean ====
section
/-! DEFINITION. The decoder, total on every message and rejecting by name, and the encoder after it. Both follow
30_encoding.md: REQ R71 to R73, RES R74, STATUS R80 and R81, CMD R85 and R86, ADDRB R88, CTRLW R90. -/

namespace Sys2Proof

open Machine

/-- A request with its operands: LEN must fit and be the number of bytes handed over (R71, R72; log 13). -/
def decodeOperands (c : Config) (make : Byte → List Byte → Instr) : Option Operands → Except DecodeError Instr
  | none => .error .operandForm
  | some o =>
    if lengthFits c o.len = false then .error .tooLong
    else if o.bytes.length = o.len then .ok (make o.addr o.bytes)
    else .error .lengthMismatch

/-- REQ (R71, R73): bits 7:3 must be 0, OP 3..7 is reserved. -/
def decodeRequest (c : Config) (r : Request) : Except DecodeError Instr :=
  if r.header = headerConfigure then
    match r.operands with
    | none => .ok .configure
    | some _ => .error .operandForm
  else if r.header = headerWrite then decodeOperands c .write r.operands
  else if r.header = headerRead then decodeOperands c .read r.operands
  else .error .reservedHeader

/-- RES (R74): the code in bits 1:0, bits 7:2 zero; INDEX only with PartialTransmit. -/
def decodeResult (c : Config) (code : Byte) (index : Nat) : Except DecodeError Instr :=
  if code = 2 then
    if lengthFits c index then .ok (.resPartialTransmit index) else .error .strayIndex
  else if index = 0 then
    if code = 0 then .ok .resOk
    else if code = 1 then .ok .resNack
    else if code = 3 then .ok .resArbitrationLost
    else .error .reservedResult
  else .error .strayIndex

/-- STATUS (R81): the row of the output asked for; an output that is false has no row. -/
def decodeStatus (c : Config) (q : Query) (s : Byte) : Except DecodeError Instr :=
  match q with
  | .busState =>
    match busState c s with
    | .busError => .ok (.busStateBusError s)
    | .ok .unknown => .ok (.busStateUnknown s)
    | .ok .idle => .ok (.busStateIdle s)
    | .ok .owner => .ok (.busStateOwner s)
    | .ok .busy => .ok (.busStateBusy s)
  | .readInterruptFlag => if rif c s then .ok (.readInterruptFlag s) else .error .outputFalse
  | .writeInterruptFlag => if wif c s then .ok (.writeInterruptFlag s) else .error .outputFalse
  | .ackState =>
    match ackState c s with
    | .nack => .ok (.ackStateNack s)
    | .ack => .ok (.ackStateAck s)
  | .clockHeld => if clockHeld c s then .ok (.clockHeld s) else .error .outputFalse
  | .arbitrationLost =>
    if arbitrationLost c s then
      .ok (if c.arbAlias then .arbitrationLostAliased s else .arbitrationLostSeparate s)
    else .error .outputFalse

/-- CMD (R85, R86): bits 7:3 zero, ACKACT in bit 2, MCMD in bits 1:0; five of the eight are defined. -/
def decodeCommand (v : Byte) : Except DecodeError Instr :=
  if v = cmdByte (ackActBit .ack) (mcmdBits .noAct) then .ok .respondAck
  else if v = cmdByte (ackActBit .nack) (mcmdBits .noAct) then .ok .respondNack
  else if v = cmdByte (ackActBit .ack) (mcmdBits .recvTrans) then .ok .recvNext
  else if v = cmdByte (ackActBit .ack) (mcmdBits .stop) then .ok .stop
  else if v = cmdByte (ackActBit .ack) (mcmdBits .repStart) then .ok .repStart
  else .error .reservedCommand

/-- Bits 7:1 of a byte. -/
def upper7 (v : Byte) : BitVec 7 := v.extractLsb' 1 7

/-- ADDRB (R88): every byte is an address byte, its bit 0 the direction. -/
def decodeAddrByte (v : Byte) : Instr :=
  if v.getLsbD 0 then .addrRead (upper7 v) else .addrWrite (upper7 v)

/-- The decoder: every message gives an instruction or the reason why it is none. -/
def decode (c : Config) : Message → Except DecodeError Instr
  | .req r => decodeRequest c r
  | .res code index => decodeResult c code index
  | .status q s => decodeStatus c q s
  | .cmd v => decodeCommand v
  | .addrB v => .ok (decodeAddrByte v)
  | .ctrlEntry v => if v.getLsbD 0 then .ok (.enSet (upper7 v)) else .error .enableClear
  | .ctrlExit v => .ok (.enRestore v)

/-- A request's operands as they are presented: LEN is the slice length (R72). -/
def operandsOf (addr : Byte) (bytes : List Byte) : Operands := { addr := addr, len := bytes.length, bytes := bytes }

/-- A result's message. -/
def encodeResult (r : TxResult) : Message := .res (resultCode r) (resultIndex r)

/-- The encoder: the message of an instruction, from the formats of 30_encoding.md. -/
def encode : Instr → Message
  | .configure => .req { header := headerConfigure, operands := none }
  | .write addr data => .req { header := headerWrite, operands := some (operandsOf addr data) }
  | .read addr buffer => .req { header := headerRead, operands := some (operandsOf addr buffer) }
  | .resOk => encodeResult .ok
  | .resNack => encodeResult (.err .nack)
  | .resPartialTransmit k => encodeResult (.err (.partialTransmit k))
  | .resArbitrationLost => encodeResult (.err .arbitrationLost)
  | .busStateBusError s => .status .busState s
  | .busStateUnknown s => .status .busState s
  | .busStateIdle s => .status .busState s
  | .busStateOwner s => .status .busState s
  | .busStateBusy s => .status .busState s
  | .readInterruptFlag s => .status .readInterruptFlag s
  | .writeInterruptFlag s => .status .writeInterruptFlag s
  | .clockHeld s => .status .clockHeld s
  | .ackStateNack s => .status .ackState s
  | .ackStateAck s => .status .ackState s
  | .arbitrationLostAliased s => .status .arbitrationLost s
  | .arbitrationLostSeparate s => .status .arbitrationLost s
  | .respondAck => .cmd (cmdByte (ackActBit .ack) (mcmdBits .noAct))
  | .respondNack => .cmd (cmdByte (ackActBit .nack) (mcmdBits .noAct))
  | .recvNext => .cmd (cmdByte (ackActBit .ack) (mcmdBits .recvTrans))
  | .stop => .cmd (cmdByte (ackActBit .ack) (mcmdBits .stop))
  | .repStart => .cmd (cmdByte (ackActBit .ack) (mcmdBits .repStart))
  | .addrWrite a => .addrB (addrByteOf7 a .write)
  | .addrRead a => .addrB (addrByteOf7 a .read)
  | .enSet e => .ctrlEntry (e ++ (1 : BitVec 1))
  | .enRestore e => .ctrlExit e

/-- The operands of a table word: the table gives a request's operands no bits, so they are zeros. -/
def zeroOperands : Operands := { addr := 0, len := 0, bytes := [] }

/-- The message an unlabelled byte is read as. The table's six formats share their bytes, and a table word does not say on
which channel it passes, so this is a CHOICE (log 12): a request if its header is one; STOP for 0x03; a bus-error status for
0x04; a status byte that shows exactly one flag; otherwise an address byte, which every byte is (30_encoding.md R92). -/
def tableMessage (v : Byte) : Message :=
  if v = headerConfigure then .req { header := v, operands := none }
  else if v = headerWrite ∨ v = headerRead then .req { header := v, operands := some zeroOperands }
  else if v = 0x03 then .cmd v
  else if v = 0x04 then .status .busState v
  else if v = 0x80 then .status .readInterruptFlag v
  else if v = 0x40 then .status .writeInterruptFlag v
  else if v = 0x20 then .status .clockHeld v
  else if v = 0x10 then .status .ackState v
  else if v = 0x08 then .status .arbitrationLost v
  else .addrB v

/-- The parameters a table word is read under: the reset state's; for 0x08, which is a row only when `P_ARB_ALIAS` is
false (R81), with that value of it (log 12). -/
def tableConfig (c : Config) (v : Byte) : Config := if v = 0x08 then { c with arbAlias := false } else c

/-- The byte of a table word: its low 8 bits, if it has no others. -/
def tableByte (nbits w : Nat) : Option Byte := if 8 ≤ nbits ∧ w < 256 then some (BitVec.ofNat 8 w) else none

/-- What the decoder reads from a table word (the host's fixed name; log 12). -/
def decodeTableWord (nbits w : Nat) : Option Instr :=
  match tableByte nbits w with
  | none => none
  | some v => (decode (tableConfig Config.default v) (tableMessage v)).toOption

end Sys2Proof
end

