-- ==== Sys2Proof/Machine/Memory.lean ====
section
/-! DEFINITION. The port's memory: the bytes of the transceiver's registers, kept in one canonical form (log 5). -/

namespace Sys2Proof.Machine

/-- The bytes of the port registers (20_memory.md R50), in canonical form: addresses strictly rising. An address that is not
listed belongs to no register, and the block never accesses it (R52; log 5). -/
abbrev Memory := List Host.Cell

/-- The canonical form: addresses strictly rising. No listed entry can equal what an unlisted address reads as, since that
is no byte at all. -/
abbrev Memory.wf (m : Memory) : Prop := m.Pairwise (fun x y => x.1 < y.1)

/-- The byte at an address, if a register is there. -/
def Memory.read : Memory → Nat → Option Byte
  | [], _ => none
  | x :: m, a => if x.1 = a then some x.2 else Memory.read m a

/-- Deliver a byte to an address. -/
def Memory.write : Memory → Nat → Byte → Memory
  | [], a, b => [(a, b)]
  | x :: m, a, b =>
    if a < x.1 then (a, b) :: x :: m
    else if x.1 = a then (a, b) :: m
    else x :: Memory.write m a b

/-- The seven registers of the port (10_state.md R26). -/
def portRegs : List PortReg := [.hold, .ctrla, .cmd, .status, .baud, .addr, .data]

/-- The port after reset number `n`: each of the seven registers holds a byte that nothing constrains (10_state.md R44,
70_reset_and_hazards.md R221; log 5). -/
def Memory.afterReset (c : Config) (n : Nat) : Memory :=
  portRegs.foldr (fun r m => Memory.write m (regAddr c r) (Config.portReset n (regAddr c r))) []

end Sys2Proof.Machine
end

