-- ==== Sys2Proof/Machine/State.lean ====
section
/-! DEFINITION. The state of the block as plain data, the reasons a step can stop, and the state after reset. INVENTORY.md
lists every field with its rule and its reset value. -/

namespace Sys2Proof.Machine

/-- The controller's states (10_state.md R21, R23). -/
inductive Phase where
  | idle | busAcquire | address | write | read | stop | error
  deriving DecidableEq, Repr

/-- The request being executed (10_state.md R21). -/
inductive Op where
  | none | configure | write | read
  deriving DecidableEq, Repr

/-- The position in the pseudocode of the current operation (10_state.md R24). A position names the next port access or
completion, or, for the ones that begin with `test`, the next test of the snapshot just read: no port access stands between
a read and its tests, so a step never rests there (log 9). Which byte a wait for WIF belongs to is said by `phase` and `k`. -/
inductive Pos where
  /-- No operation: the request interface is read next (42_transactions.md R150). -/
  | idle
  /-- CONFIGURE's writes of HOLD, BAUD and STATUS (R152). -/
  | hold | baud | forceIdle
  /-- `EN_SAVE`, `EN_SET` (41_bus_primitives.md R120, R121). -/
  | enSave | enSet
  /-- `WAIT_IDLE`: the read, and its test of `bus_state` (R124). -/
  | waitIdle | testIdle
  /-- `SEND_ADDR` (R125). -/
  | sendAddr
  /-- `WAIT_WIF`: the read, and its test of WIF (R126); then the three tests of `CLASSIFY` (R128). -/
  | waitWif | testWif | testAck | testArb | testHold
  /-- `PUT_BYTE` (R127). -/
  | putByte
  /-- `ISSUE_STOP` (R132). -/
  | issueStop
  /-- `ARB_CHECK`: the read and its test (R135). -/
  | arbCheck | testArbStop
  /-- A read's poll: the read, its test of arbitration loss, its test of RIF (42_transactions.md R173). -/
  | pollRead | testArbRead | testRif
  /-- The read of DATA, `RESPOND(Ack)`, `RECV_NEXT` (R173). -/
  | readData | respond | recvNext
  /-- `QUIESCE` (41_bus_primitives.md R131). -/
  | quiesce
  /-- `EN_RESTORE` at an exit with result `r` (R122; 42_transactions.md R160, R171; 60_exceptions.md R195). -/
  | enRestore (r : TxResult)
  /-- `finish(r)` (42_transactions.md R151). -/
  | complete (r : TxResult)
  deriving DecidableEq, Repr

/-- One port access, as the port trace writes it (30_encoding.md R95): `R reg -> v` or `W reg <- v`. -/
inductive PortAccess where
  | read (r : PortReg) (v : Byte)
  | write (r : PortReg) (v : Byte)
  deriving DecidableEq, Repr

/-- One delivery on the result channel (30_encoding.md R74, 42_transactions.md R151): the code byte, the index, and for a
READ the buffer. -/
structure Delivery where
  code : Byte
  index : Nat
  buffer : Option (List Byte)
  deriving DecidableEq, Repr

/-- The state of the block, its interfaces and its parameters (INVENTORY.md, State). -/
structure State where
  /-- The parameters of 00_scope.md R9 to R12; no step changes them (log 1). -/
  cfg : Config
  /-- The controller's state (10_state.md R23). -/
  phase : Phase
  /-- The request being executed (10_state.md R21); so for the registers down to `result`. -/
  op : Op
  addr : Byte
  len : Nat
  data : List Byte
  /-- The requester's buffer, while a READ fills it. -/
  buf : List Byte
  /-- `saved_en`. -/
  savedEn : Byte
  /-- `s`, the latest status snapshot. -/
  snap : Byte
  k : Nat
  q : Nat
  result : TxResult
  /-- The position in the pseudocode (10_state.md R24). -/
  pos : Pos
  /-- The byte of each port register: the one the controller last delivered, or after a reset a free one (10_state.md R26,
  R44; log 5). -/
  port : Memory
  /-- The requests the requester presents, the head first (log 7). -/
  requests : List Request
  /-- The results delivered, oldest first (log 6). -/
  delivered : List Delivery
  /-- The port accesses made, oldest first (log 6). -/
  trace : List PortAccess
  /-- The environment's answers to the next port reads (log 4). -/
  answers : List Byte
  /-- How many port reads were made, the argument of `Config.portDraw` (log 4). -/
  draws : Nat
  /-- How many resets there were since the first, the argument of `Config.portReset` (log 5). -/
  resets : Nat
  /-- The reset input, sampled at the start of a step (log 8). -/
  resetIn : Bool
  deriving DecidableEq, Repr

/-- The stops of the model itself, in states that no run from reset reaches (log 17). The block has no trap
(60_exceptions.md R190). -/
inductive Fault where
  /-- Raised by a step whose position and `op` stand together nowhere in the pseudocode of 42_transactions.md. Safe. -/
  | offPath
  /-- Raised by WRITE where `data[k]` does not exist (10_state.md R22: a read of a register that nothing has written).
  Safe. -/
  | noDataByte
  /-- Raised by READ where `buf[k]` does not exist (10_state.md R22). Safe. -/
  | noBufferByte
  deriving DecidableEq, Repr

/-- The refusals. -/
inductive Refusal where
  /-- Raised by `exec` for an instruction that has no meaning yet. Safe. -/
  | notModelled (mnemonic : String)
  /-- Raised by a step that reads a header which is no request (30_encoding.md R73). Safe: the rule asks for it. -/
  | notARequest
  /-- Raised by a step that reads operands which do not fit the request's format (30_encoding.md R71, R72; log 13). Safe. -/
  | malformedRequest
  /-- Raised by REPSTART: the block has no step that writes 0x01 to CMD (41_bus_primitives.md R133; log 14). Safe. -/
  | repeatedStartNeverIssued
  deriving DecidableEq, Repr

/-- The machine right after reset: IDLE and NONE (10_state.md R43); the registers the spec calls unspecified hold the
values of log 3; each port register holds a free byte (R44; log 5); nothing has passed over the port or the result channel. -/
def State.reset : State where
  cfg := Config.default
  phase := .idle
  op := .none
  addr := 0
  len := 0
  data := []
  buf := []
  savedEn := 0
  snap := 0
  k := 0
  q := 0
  result := .ok
  pos := .idle
  port := Memory.afterReset Config.default 0
  requests := []
  delivered := []
  trace := []
  answers := []
  draws := 0
  resets := 0
  resetIn := false

end Sys2Proof.Machine
end

