-- ==== Sys2Proof/Machine/Ops.lean ====
section
/-! DEFINITION. The shared operations: port accesses (00_scope.md R14), acceptance and completion (42_transactions.md R150,
R151), the error exit (60_exceptions.md R195), and what the pseudocode of 42_transactions.md does silently after an access
(log 9, log 10). -/

namespace Sys2Proof.Machine

/-! ### The port -/

/-- The environment's answer to the next port read: the next one the state lists, else a free byte (20_memory.md R57;
log 4). -/
def State.answer (s : State) : Byte :=
  match s.answers with
  | b :: _ => b
  | [] => Config.portDraw s.draws

/-- What a port read of register `r` leaves: the answer is used up and the access stands in the trace. The byte read is
`s.answer` (20_memory.md R57, R60). -/
def State.afterRead (s : State) (r : PortReg) : State :=
  { s with
    answers := s.answers.tail
    draws := s.draws + 1
    trace := s.trace ++ [.read r s.answer] }

/-- `PortWrite(r, v)` (00_scope.md R14): one byte delivered to the register's address (20_memory.md R53, R62). -/
def State.portWrite (s : State) (r : PortReg) (v : Byte) : State :=
  { s with
    port := Memory.write s.port (regAddr s.cfg r) v
    trace := s.trace ++ [.write r v] }

/-- `SNAP` (41_bus_primitives.md R123): the only way STATUS is read. -/
def State.snapStatus (s : State) : State := { s.afterRead .status with snap := s.answer }

/-- The operation goes on at position `p`. -/
def State.goto (s : State) (p : Pos) : State := { s with pos := p }

/-- An access made at position `p` hands over to `next`; the same access made anywhere else moves nothing (log 15). -/
def State.returnTo (s : State) (p : Pos) (next : State → State) : State := if s.pos = p then next s else s

/-! ### Acceptance and completion (42_transactions.md R150, R151) -/

/-- A request is accepted only in IDLE with no operation (R150). -/
def State.canAccept (s : State) : Bool := s.phase == .idle && s.op == .none

/-- The request at the head of the request interface is taken. -/
def State.takeRequest (s : State) : State := { s with requests := s.requests.tail }

/-- Acceptance of CONFIGURE (R150): no port access; the phase stays IDLE (R152). -/
def State.acceptConfigure (s : State) : State := { s.takeRequest with op := .configure, pos := .hold }

/-- Acceptance of WRITE (R150): the operands are copied. -/
def State.acceptWrite (s : State) (addr : Byte) (data : List Byte) : State :=
  { s.takeRequest with op := .write, addr := addr, len := data.length, data := data, pos := .enSave }

/-- Acceptance of READ (R150): the requester's buffer comes with the request (30_encoding.md R72). -/
def State.acceptRead (s : State) (addr : Byte) (buffer : List Byte) : State :=
  { s.takeRequest with op := .read, addr := addr, len := buffer.length, buf := buffer, pos := .enSave }

/-- The delivery of result `r`: code and index of 30_encoding.md R74, and the buffer if the request is a READ (R151). -/
def State.delivery (s : State) (r : TxResult) : Delivery where
  code := resultCode r
  index := resultIndex r
  buffer := if s.op = .read then some s.buf else none

/-- `finish(r)` (42_transactions.md R151): no port access. -/
def State.finish (s : State) (r : TxResult) : State :=
  { s with
    result := r
    op := .none
    phase := .idle
    pos := .idle
    delivered := s.delivered ++ [s.delivery r] }

/-- `raise E` (60_exceptions.md R195): phase ERROR, then `EN_RESTORE` and `finish(Err(E))`, whose positions follow. This is
the one way an operation fails; the return from it is `finish`. -/
def State.raise (s : State) (e : TxError) : State := { s with phase := .error, pos := .enRestore (.err e) }

/-! ### What follows an access -/

/-- The direction of the operation's address byte: 0 for a write, 1 for a read (30_encoding.md R88). -/
def State.dir (s : State) : Dir := if s.op = .read then .read else .write

/-- `WAIT_IDLE` saw Idle: the address phase begins (42_transactions.md R161, R170, R176). -/
def State.enterAddress (s : State) : State := { s with phase := .address, pos := .sendAddr }

/-- The StopPhase begins (42_transactions.md R165, R175). -/
def State.enterStop (s : State) : State := { s with phase := .stop, pos := .issueStop }

/-- After `SEND_ADDR`: a write waits for WIF; a read goes to its first byte, or to STOP if it has none
(42_transactions.md R163, R172, R175). -/
def State.afterSendAddr (s : State) : State :=
  if s.op = .read then
    if s.len = 0 then s.enterStop else { s with phase := .read, k := 0, pos := .pollRead }
  else s.goto .waitWif

/-- A byte of a write was classified PROCEED (42_transactions.md R161): after the address, the normal exit if there is no
data (R166), else byte 0; after byte `k`, the next byte (R164), or STOP after the last (R165). -/
def State.proceed (s : State) : State :=
  if s.phase = .address then
    if s.len = 0 then s.goto (.enRestore .ok) else { s with phase := .write, k := 0, pos := .putByte }
  else if s.k + 1 < s.len then { s with k := s.k + 1, pos := .putByte }
  else s.enterStop

/-- A byte of a write was classified NACK: `Nack` for the address and for the last byte (42_transactions.md R163, R165),
`PartialTransmit(k)` for an earlier byte `k` (R164). -/
def State.nackError (s : State) : TxError :=
  if s.phase = .address then .nack else if s.k + 1 < s.len then .partialTransmit s.k else .nack

/-- After `RECV_NEXT`: the next byte, or STOP after the last (42_transactions.md R173, R175). -/
def State.afterRecvNext (s : State) : State :=
  if s.k + 1 < s.len then { s with k := s.k + 1, pos := .pollRead } else s.enterStop

/-- The quiescence reads go on while fewer than `P_QUIESCE_READS` were made (41_bus_primitives.md R131); then the normal
exit (42_transactions.md R171). -/
def State.quiesceOrExit (s : State) : State :=
  if s.q < s.cfg.quiesceReads then s.goto .quiesce else s.goto (.enRestore .ok)

/-- After `ISSUE_STOP`: a read's quiescence reads (42_transactions.md R175), a write's arbitration check (R165). -/
def State.afterStop (s : State) : State :=
  if s.op = .read then { s with q := 0 }.quiesceOrExit else s.goto .arbCheck

/-- After `EN_RESTORE` at an exit with result `r`: `finish(r)` (42_transactions.md R160, R171, 60_exceptions.md R195). -/
def State.afterRestore (s : State) : State :=
  match s.pos with
  | .enRestore r => s.goto (.complete r)
  | _ => s

/-- A branch taken on an output of the decoder: where the pseudocode tests that output (position `p`) and the byte shows it.
Anywhere else the decoder, which is pure, changes nothing (40_status_decoder.md R100). -/
def State.onOutput (s : State) (shown : Bool) (p : Pos) (taken : State → State) : State :=
  if shown = true ∧ s.pos = p then taken s else s

/-! ### Reset (70_reset_and_hazards.md R220) -/

/-- Reset: the request in progress is abandoned with no result and no port access. The registers the spec leaves
unspecified get the values they have in the reset state (log 3, log 8), and the port registers free bytes again, whatever was
delivered to them before (R221, R222; log 5). The trace, the results delivered and the requests still presented stay. -/
def State.applyReset (s : State) : State :=
  { State.reset with
    cfg := s.cfg
    port := Memory.afterReset s.cfg (s.resets + 1)
    requests := s.requests
    delivered := s.delivered
    trace := s.trace
    answers := s.answers
    draws := s.draws
    resets := s.resets + 1 }

end Sys2Proof.Machine
end

