-- ==== Sys2Proof/Machine/AddressBytes.lean ====
section
/-! DEFINITION. The address bytes (ADDRB): `SEND_ADDR(rw)`, one write of ADDR (41_bus_primitives.md R125, 30_encoding.md
R88). -/

namespace Sys2Proof.Machine

/-- `SEND_ADDR(rw)` with the seven address bits. -/
def State.sendAddr (s : State) (a : BitVec 7) (rw : Dir) : State :=
  (s.portWrite .addr (addrByteOf7 a rw)).returnTo .sendAddr State.afterSendAddr

/-- ADDR_WRITE: `SEND_ADDR(0)` (41_bus_primitives.md R125; 42_transactions.md R163). -/
def execAddrWrite (a : BitVec 7) (s : State) : Host.Outcome State Fault Refusal := .next (s.sendAddr a .write)

/-- ADDR_READ: `SEND_ADDR(1)` (41_bus_primitives.md R125; 42_transactions.md R172). -/
def execAddrRead (a : BitVec 7) (s : State) : Host.Outcome State Fault Refusal := .next (s.sendAddr a .read)

end Sys2Proof.Machine
end

