-- ==== Sys2Proof/Machine/Commands.lean ====
section
/-! DEFINITION. The commands (CMD): one write of CMD each (41_bus_primitives.md R129, R130, R132), and REPSTART, which the
block never writes (R133). -/

namespace Sys2Proof.Machine

/-- `RESPOND(kind)` (41_bus_primitives.md R129); in a read `RECV_NEXT` follows `RESPOND(Ack)` (42_transactions.md R173). R129
lets `RECV_NEXT` or `ISSUE_STOP` follow, and no transaction issues `RESPOND(Nack)`: that `RECV_NEXT` follows it here as well is
the model's choice (DESIGN CHOICE, log 14). -/
def State.respondWith (s : State) (kind : AckKind) : State :=
  (s.portWrite .cmd (cmdByte (ackActBit kind) (mcmdBits .noAct))).returnTo .respond (fun t => t.goto .recvNext)

/-- RESPOND_ACK: `W CMD <- 0x00` (41_bus_primitives.md R129). -/
def execRespondAck (s : State) : Host.Outcome State Fault Refusal := .next (s.respondWith .ack)

/-- RESPOND_NACK: `W CMD <- 0x04` (41_bus_primitives.md R129); no transaction issues it, and what follows
it is the model's choice (log 14). -/
def execRespondNack (s : State) : Host.Outcome State Fault Refusal := .next (s.respondWith .nack)

/-- RECV_NEXT: `W CMD <- 0x02` (41_bus_primitives.md R130). -/
def execRecvNext (s : State) : Host.Outcome State Fault Refusal :=
  .next ((s.portWrite .cmd (cmdByte (ackActBit .ack) (mcmdBits .recvTrans))).returnTo .recvNext State.afterRecvNext)

/-- STOP: `W CMD <- 0x03` (41_bus_primitives.md R132). -/
def execStop (s : State) : Host.Outcome State Fault Refusal :=
  .next ((s.portWrite .cmd (cmdByte (ackActBit .ack) (mcmdBits .stop))).returnTo .issueStop State.afterStop)

/-- REPSTART: "A model has no step that writes 0x01 to CMD" (41_bus_primitives.md R133; log 14). -/
def execRepStart (_s : State) : Host.Outcome State Fault Refusal := .refused .repeatedStartNeverIssued

end Sys2Proof.Machine
end

