-- ==== Sys2Proof/Machine/Enable.lean ====
section
/-! DEFINITION. The CTRLA writes (CTRLW): `EN_SET` at a request's entry and `EN_RESTORE` at its exit (41_bus_primitives.md
R121, R122, 30_encoding.md R90). -/

namespace Sys2Proof.Machine

/-- EN_SET: CTRLA gets bits 7:1 of the saved byte with ENABLE set (41_bus_primitives.md R121); `WAIT_IDLE` follows
(42_transactions.md R162). -/
def execEnSet (e : BitVec 7) (s : State) : Host.Outcome State Fault Refusal :=
  .next ((s.portWrite .ctrla (e ++ (1 : BitVec 1))).returnTo .enSet (fun t => t.goto .waitIdle))

/-- EN_RESTORE: CTRLA gets the saved byte back, on every exit (41_bus_primitives.md R122). -/
def execEnRestore (e : Byte) (s : State) : Host.Outcome State Fault Refusal :=
  .next (s.portWrite .ctrla e).afterRestore

end Sys2Proof.Machine
end

