-- ==== Sys2Proof/Machine/Requests.lean ====
section
/-! DEFINITION. The requests (REQ): CONFIGURE, WRITE, READ of 42_transactions.md. A request is the instruction in progress
from its acceptance to its completion: besides accepting, it makes the accesses of its pseudocode that have no row of their
own in the opcode table. The accesses that have one (CMD, ADDR, CTRLA writes, the result) are those rows' meanings. A request
that is presented while another is in progress waits (R150). -/

namespace Sys2Proof.Machine

/-- `EN_SAVE` (41_bus_primitives.md R120), the first access of a WRITE and a READ; the phase becomes BUS_ACQUIRE
(42_transactions.md R161, R170, R176). -/
def State.enSave (s : State) : State :=
  { s.afterRead .ctrla with phase := .busAcquire, savedEn := s.answer, pos := .enSet }

/-- The read of DATA for byte `k` of a READ (42_transactions.md R173, step 2): the byte goes to `buf[k]`. -/
def State.captureData (s : State) : State :=
  { s.afterRead .data with buf := s.buf.set s.k s.answer, pos := .respond }

/-- One quiescence read (41_bus_primitives.md R131): a SNAP whose value is not used. -/
def State.quiesceRead (s : State) : State := { s.snapStatus with q := s.q + 1 }.quiesceOrExit

/-- CONFIGURE (42_transactions.md R152): accepted, then the writes of HOLD, BAUD and STATUS, then `finish(Ok(()))`. -/
def execConfigure (s : State) : Host.Outcome State Fault Refusal :=
  if s.canAccept then .next s.acceptConfigure
  else if s.op = .configure then
    match s.pos with
    | .hold => .next ((s.portWrite .hold s.cfg.hold).goto .baud)
    | .baud => .next ((s.portWrite .baud s.cfg.baud).goto .forceIdle)
    | .forceIdle => .next ((s.portWrite .status (forceIdleByte s.cfg)).goto (.complete .ok))
    | _ => .next s
  else .next s

/-- WRITE (42_transactions.md R161): accepted, then `EN_SAVE`, the reads of `WAIT_IDLE`, of `WAIT_WIF` and of `ARB_CHECK`
(41_bus_primitives.md R124, R126, R135), and `PUT_BYTE(data[k])` (R127, R134). -/
def execWrite (addr : Byte) (data : List Byte) (s : State) : Host.Outcome State Fault Refusal :=
  if s.canAccept then .next (s.acceptWrite addr data)
  else if s.op = .write then
    match s.pos with
    | .enSave => .next s.enSave
    | .waitIdle => .next (s.snapStatus.goto .testIdle)
    | .waitWif => .next (s.snapStatus.goto .testWif)
    | .putByte =>
      match s.data[s.k]? with
      | some b => .next ((s.portWrite .data b).goto .waitWif)
      | none => .fault .noDataByte
    | .arbCheck => .next (s.snapStatus.goto .testArbStop)
    | _ => .next s
  else .next s

/-- READ (42_transactions.md R170): accepted, then `EN_SAVE`, the reads of `WAIT_IDLE` and of the poll for each byte, the
read of DATA (R173) and the quiescence reads (R175). -/
def execRead (addr : Byte) (buffer : List Byte) (s : State) : Host.Outcome State Fault Refusal :=
  if s.canAccept then .next (s.acceptRead addr buffer)
  else if s.op = .read then
    match s.pos with
    | .enSave => .next s.enSave
    | .waitIdle => .next (s.snapStatus.goto .testIdle)
    | .pollRead => .next (s.snapStatus.goto .testArbRead)
    | .readData => if s.k < s.buf.length then .next s.captureData else .fault .noBufferByte
    | .quiesce => .next s.quiesceRead
    | _ => .next s
  else .next s

end Sys2Proof.Machine
end

