-- ==== Sys2Proof/Machine/Results.lean ====
section
/-! DEFINITION. The results (RES): `finish(r)` of 42_transactions.md R151 with each of the four results of 30_encoding.md
R74. The spec has `finish` at a completion only; that a result row executed anywhere else runs it in full, with whatever
result is due there, is the model's choice (DESIGN CHOICE, log 15). -/

namespace Sys2Proof.Machine

/-- RES_OK (30_encoding.md R74; 42_transactions.md R152, R160, R171); anywhere else too (log 15). -/
def execResOk (s : State) : Host.Outcome State Fault Refusal := .next (s.finish .ok)

/-- RES_NACK (60_exceptions.md R191); anywhere else too (log 15). -/
def execResNack (s : State) : Host.Outcome State Fault Refusal := .next (s.finish (.err .nack))

/-- RES_PARTIAL_TRANSMIT (60_exceptions.md R192): the index of the rejected byte goes with it. Anywhere else too
(log 15). -/
def execResPartialTransmit (index : Nat) (s : State) : Host.Outcome State Fault Refusal :=
  .next (s.finish (.err (.partialTransmit index)))

/-- RES_ARBITRATION_LOST (60_exceptions.md R193); anywhere else too (log 15). -/
def execResArbitrationLost (s : State) : Host.Outcome State Fault Refusal := .next (s.finish (.err .arbitrationLost))

end Sys2Proof.Machine
end

