-- ==== Sys2Proof/Machine/StatusRows.lean ====
section
/-! DEFINITION. The outputs of the bus status decoder (STATUS): the branch the controller takes on each, where its pseudocode
tests it. The byte is the instruction's operand. A byte that does not show the output, or a position that does not test it,
changes nothing: the decoder is pure (40_status_decoder.md R100). What a FALSE output leads to has no row (30_encoding.md
R81); it is `State.outputFalse` of Machine/Settle.lean. -/

namespace Sys2Proof.Machine

/-- The four bus-state results other than Idle repeat the loop of `WAIT_IDLE` (41_bus_primitives.md R124). -/
def State.keepWaiting (s : State) (shown : Bool) : State := s.onOutput shown .testIdle (fun t => t.goto .waitIdle)

/-- `arbitration_lost` true: `ArbitrationLost` in a write's classification (41_bus_primitives.md R128), in `ARB_CHECK`
(R135; 42_transactions.md R165) and in a read's poll (R173). -/
def State.lostArbitration (s : State) (shown : Bool) : State :=
  if shown = true ∧ (s.pos = .testArb ∨ s.pos = .testArbStop ∨ s.pos = .testArbRead) then s.raise .arbitrationLost else s

/-- bus_state=Err(BusError): "keep waiting" (40_status_decoder.md R101, 60_exceptions.md R194). -/
def execBusStateBusError (b : Byte) (s : State) : Host.Outcome State Fault Refusal :=
  .next (s.keepWaiting (busState s.cfg b == .busError))

/-- bus_state=Ok(Unknown): keep waiting (41_bus_primitives.md R124). -/
def execBusStateUnknown (b : Byte) (s : State) : Host.Outcome State Fault Refusal :=
  .next (s.keepWaiting (busState s.cfg b == .ok .unknown))

/-- bus_state=Ok(Idle): the only output that ends `WAIT_IDLE` (41_bus_primitives.md R124). -/
def execBusStateIdle (b : Byte) (s : State) : Host.Outcome State Fault Refusal :=
  .next (s.onOutput (busState s.cfg b == .ok .idle) .testIdle State.enterAddress)

/-- bus_state=Ok(Owner): keep waiting (41_bus_primitives.md R124). -/
def execBusStateOwner (b : Byte) (s : State) : Host.Outcome State Fault Refusal :=
  .next (s.keepWaiting (busState s.cfg b == .ok .owner))

/-- bus_state=Ok(Busy): keep waiting (41_bus_primitives.md R124). -/
def execBusStateBusy (b : Byte) (s : State) : Host.Outcome State Fault Refusal :=
  .next (s.keepWaiting (busState s.cfg b == .ok .busy))

/-- read_interrupt_flag=true: a read's poll ends and DATA is read (42_transactions.md R173). -/
def execReadInterruptFlag (b : Byte) (s : State) : Host.Outcome State Fault Refusal :=
  .next (s.onOutput (rif s.cfg b) .testRif (fun t => t.goto .readData))

/-- write_interrupt_flag=true: `WAIT_WIF` ends and the snapshot is classified (41_bus_primitives.md R126, R128). -/
def execWriteInterruptFlag (b : Byte) (s : State) : Host.Outcome State Fault Refusal :=
  .next (s.onOutput (wif s.cfg b) .testWif (fun t => t.goto .testAck))

/-- clock_held=true after ACK and no arbitration loss: PROCEED (41_bus_primitives.md R128). -/
def execClockHeld (b : Byte) (s : State) : Host.Outcome State Fault Refusal :=
  .next (s.onOutput (clockHeld s.cfg b) .testHold State.proceed)

/-- ack_state=Nack: the first test of `CLASSIFY`, NACK (41_bus_primitives.md R128; 42_transactions.md R163 to R165). -/
def execAckStateNack (b : Byte) (s : State) : Host.Outcome State Fault Refusal :=
  .next (s.onOutput (ackState s.cfg b == .nack) .testAck (fun t => t.raise t.nackError))

/-- ack_state=Ack: `CLASSIFY` goes on to its second test (41_bus_primitives.md R128). -/
def execAckStateAck (b : Byte) (s : State) : Host.Outcome State Fault Refusal :=
  .next (s.onOutput (ackState s.cfg b == .ack) .testAck (fun t => t.goto .testArb))

/-- arbitration_lost=true under `P_ARB_ALIAS` (40_status_decoder.md R107). -/
def execArbitrationLostAliased (b : Byte) (s : State) : Host.Outcome State Fault Refusal :=
  .next (s.lostArbitration (s.cfg.arbAlias && arbitrationLost s.cfg b))

/-- arbitration_lost=true without `P_ARB_ALIAS` (40_status_decoder.md R107). -/
def execArbitrationLostSeparate (b : Byte) (s : State) : Host.Outcome State Fault Refusal :=
  .next (s.lostArbitration (!s.cfg.arbAlias && arbitrationLost s.cfg b))

end Sys2Proof.Machine
end

