-- ==== Sys2Proof/Machine/Dispatch.lean ====
section
/-! DEFINITION. The dispatch: one arm per constructor of `Instr`, each one call of its meaning. -/

namespace Sys2Proof.Machine

def exec (i : Instr) (s : State) : Host.Outcome State Fault Refusal :=
  match i with
  | .configure => Sys2Proof.Machine.execConfigure s
  | .write addr data => Sys2Proof.Machine.execWrite addr data s
  | .read addr buffer => Sys2Proof.Machine.execRead addr buffer s
  | .resOk => Sys2Proof.Machine.execResOk s
  | .resNack => Sys2Proof.Machine.execResNack s
  | .resPartialTransmit index => Sys2Proof.Machine.execResPartialTransmit index s
  | .resArbitrationLost => Sys2Proof.Machine.execResArbitrationLost s
  | .busStateBusError b => Sys2Proof.Machine.execBusStateBusError b s
  | .busStateUnknown b => Sys2Proof.Machine.execBusStateUnknown b s
  | .busStateIdle b => Sys2Proof.Machine.execBusStateIdle b s
  | .busStateOwner b => Sys2Proof.Machine.execBusStateOwner b s
  | .busStateBusy b => Sys2Proof.Machine.execBusStateBusy b s
  | .readInterruptFlag b => Sys2Proof.Machine.execReadInterruptFlag b s
  | .writeInterruptFlag b => Sys2Proof.Machine.execWriteInterruptFlag b s
  | .clockHeld b => Sys2Proof.Machine.execClockHeld b s
  | .ackStateNack b => Sys2Proof.Machine.execAckStateNack b s
  | .ackStateAck b => Sys2Proof.Machine.execAckStateAck b s
  | .arbitrationLostAliased b => Sys2Proof.Machine.execArbitrationLostAliased b s
  | .arbitrationLostSeparate b => Sys2Proof.Machine.execArbitrationLostSeparate b s
  | .respondAck => Sys2Proof.Machine.execRespondAck s
  | .respondNack => Sys2Proof.Machine.execRespondNack s
  | .recvNext => Sys2Proof.Machine.execRecvNext s
  | .stop => Sys2Proof.Machine.execStop s
  | .repStart => Sys2Proof.Machine.execRepStart s
  | .addrWrite a => Sys2Proof.Machine.execAddrWrite a s
  | .addrRead a => Sys2Proof.Machine.execAddrRead a s
  | .enSet e => Sys2Proof.Machine.execEnSet e s
  | .enRestore e => Sys2Proof.Machine.execEnRestore e s

end Sys2Proof.Machine
end

