-- ==== Sys2Proof/Machine/Fetch.lean ====
section
/-! DEFINITION. Which instruction a state runs next. The block fetches no instructions from memory (20_memory.md R65): a
position of the pseudocode gives the message that passes next over one of the channels, and the decoder reads it; the
accesses without a row of the opcode table belong to the request in progress. -/

namespace Sys2Proof.Machine

/-- The output a test position asks for (41_bus_primitives.md R124, R126, R128, R135; 42_transactions.md R173). -/
def Pos.query : Pos → Option Query
  | .testIdle => some .busState
  | .testWif => some .writeInterruptFlag
  | .testAck => some .ackState
  | .testArb => some .arbitrationLost
  | .testHold => some .clockHeld
  | .testArbStop => some .arbitrationLost
  | .testArbRead => some .arbitrationLost
  | .testRif => some .readInterruptFlag
  | _ => none

/-- The message that passes next over the channel the position uses, if it uses one that has rows in the table. -/
def State.message (s : State) : Option Message :=
  match s.pos with
  | .idle => s.requests.head?.map .req
  | .enSet => some (.ctrlEntry (enableByte s.savedEn))
  | .sendAddr => some (.addrB (addrByte s.addr s.dir))
  | .respond => some (.cmd (cmdByte (ackActBit .ack) (mcmdBits .noAct)))
  | .recvNext => some (.cmd (cmdByte (ackActBit .ack) (mcmdBits .recvTrans)))
  | .issueStop => some (.cmd (cmdByte (ackActBit .ack) (mcmdBits .stop)))
  | .enRestore _ => some (.ctrlExit s.savedEn)
  | .complete r => some (encodeResult r)
  | p => p.query.map (fun q => .status q s.snap)

/-- The request in progress, as an instruction (10_state.md R21). -/
def State.requestInProgress (s : State) : Option Instr :=
  match s.op with
  | .none => none
  | .configure => some .configure
  | .write => some (.write s.addr s.data)
  | .read => some (.read s.addr s.buf)

/-- Whether the position is one of the operation's own accesses (42_transactions.md R152, R161, R170): those that the
request's meaning makes. -/
def Pos.ownedBy : Pos → Op → Bool
  | .hold, .configure => true
  | .baud, .configure => true
  | .forceIdle, .configure => true
  | .enSave, .write => true
  | .waitIdle, .write => true
  | .waitWif, .write => true
  | .putByte, .write => true
  | .arbCheck, .write => true
  | .enSave, .read => true
  | .waitIdle, .read => true
  | .pollRead, .read => true
  | .readData, .read => true
  | .quiesce, .read => true
  | _, _ => false

/-- What a state runs next. -/
inductive Fetched where
  /-- An instruction. -/
  | instr (i : Instr)
  /-- Nothing: IDLE, and no request is presented. -/
  | nothing
  /-- A request that decodes to none. -/
  | badRequest (e : DecodeError)
  /-- A test whose output is false. -/
  | notShown
  /-- A state the pseudocode does not reach. -/
  | offPath
  deriving DecidableEq, Repr

/-- A message that decodes to no instruction: a bad request at the request interface, a false output at a test. -/
def State.undecoded (s : State) (e : DecodeError) : Fetched :=
  if s.pos = .idle then .badRequest e else if s.pos.query.isSome then .notShown else .offPath

/-- The fetch. -/
def State.fetch (s : State) : Fetched :=
  match s.message with
  | some m =>
    match decode s.cfg m with
    | .ok i => .instr i
    | .error e => s.undecoded e
  | none =>
    if s.pos = .idle then .nothing
    else if s.pos.ownedBy s.op then
      match s.requestInProgress with
      | some i => .instr i
      | none => .offPath
    else .offPath

/-- The refusal of a bad request: a header that is none (30_encoding.md R73), or operands that do not fit (log 13). -/
def refusalOf : DecodeError → Refusal
  | .reservedHeader => .notARequest
  | .operandForm => .malformedRequest
  | .tooLong => .malformedRequest
  | .lengthMismatch => .malformedRequest
  | .reservedResult => .malformedRequest
  | .strayIndex => .malformedRequest
  | .outputFalse => .malformedRequest
  | .reservedCommand => .malformedRequest
  | .enableClear => .malformedRequest

/-- The test position of each output, where a message of it is to be run next: a read's for `read_interrupt_flag` and
`arbitration_lost`, a write's for the others. -/
def testPos : Query → Pos
  | .busState => .testIdle
  | .readInterruptFlag => .testRif
  | .writeInterruptFlag => .testWif
  | .ackState => .testAck
  | .clockHeld => .testHold
  | .arbitrationLost => .testArbRead

/-- The state in which the message `m` is the next to pass: the position that puts it on its channel, with the operation,
the phase and the register it is made from. Only messages of `tableMessage` are placed. -/
def State.place (s : State) : Message → State
  | .req r => { s with phase := .idle, op := .none, pos := .idle, requests := r :: s.requests }
  | .status .busState b => { s with phase := .busAcquire, op := .write, pos := .testIdle, snap := b }
  | .status .readInterruptFlag b => { s with phase := .read, op := .read, pos := .testRif, snap := b }
  | .status .arbitrationLost b => { s with phase := .read, op := .read, pos := .testArbRead, snap := b }
  | .status q b => { s with phase := .address, op := .write, pos := testPos q, snap := b }
  | .cmd _ => { s with phase := .stop, op := .write, pos := .issueStop }
  | .addrB v =>
    { s with phase := .address, op := if v.getLsbD 0 then .read else .write, addr := v >>> 1, pos := .sendAddr }
  | .res _ _ => s
  | .ctrlEntry _ => s
  | .ctrlExit _ => s

/-- The state whose next step runs the instruction of table byte `v` (log 7, log 12). -/
def State.placeTableByte (s : State) (v : Byte) : State :=
  { s with cfg := tableConfig s.cfg v, resetIn := false }.place (tableMessage v)

end Sys2Proof.Machine
end

