-- ==== Sys2Proof/Machine/Settle.lean ====
section
/-! DEFINITION. The tests of a snapshot, made in the step that read it: no port access stands between them (00_scope.md R6,
10_state.md R24; log 9). A true output is a row of the opcode table and is executed; a false one has no row. -/

namespace Sys2Proof.Machine

/-- What follows a false output at the position that tests it: another read in the three polls (41_bus_primitives.md R124,
R126; 42_transactions.md R173), the next test in a classification, its fallback `ArbitrationLost` at the end (R128), and the
normal exit after `ARB_CHECK` (42_transactions.md R165). -/
def State.outputFalse (s : State) : State :=
  match s.pos with
  | .testIdle => s.goto .waitIdle
  | .testWif => s.goto .waitWif
  | .testAck => s.goto .testArb
  | .testArb => s.goto .testHold
  | .testHold => s.raise .arbitrationLost
  | .testArbStop => s.goto (.enRestore .ok)
  | .testArbRead => s.goto .testRif
  | .testRif => s.goto .pollRead
  | _ => s

/-- Make at most `n` tests of the snapshot, until the next port access or completion. -/
def settle : Nat → State → Host.Outcome State Fault Refusal
  | 0, s => .next s
  | n + 1, s =>
    match s.pos.query with
    | none => .next s
    | some q =>
      match decode s.cfg (.status q s.snap) with
      | .error _ => settle n s.outputFalse
      | .ok i =>
        match exec i s with
        | .next t => settle n t
        | .fault f => .fault f
        | .refused r => .refused r

/-- The longest chain of tests of one snapshot: WIF and the three of `CLASSIFY` (41_bus_primitives.md R126, R128). -/
def maxTests : Nat := 4

/-- The tests that follow an access. -/
def thenSettle : Host.Outcome State Fault Refusal → Host.Outcome State Fault Refusal
  | .next s => settle maxTests s
  | .fault f => .fault f
  | .refused r => .refused r

/-- One step of the block outside reset (00_scope.md R6): the fetched instruction, with the tests of the snapshot it leaves.
With no request presented the block stays as it is (log 7). -/
def stepRunning (s : State) : Host.Outcome State Fault Refusal :=
  match s.fetch with
  | .instr i => thenSettle (exec i s)
  | .nothing => .next s
  | .badRequest e => .refused (refusalOf e)
  | .notShown => settle maxTests s.outputFalse
  | .offPath => .fault .offPath

end Sys2Proof.Machine
end

