-- ==== Sys2Proof/Machine/Step.lean ====
section
/-! DEFINITION. The step: reset if its input is asserted (70_reset_and_hazards.md R220; log 8), else one step of the block. -/

namespace Sys2Proof.Machine

/-- One step. -/
def step (s : State) : Host.Outcome State Fault Refusal :=
  if s.resetIn then .next s.applyReset else stepRunning s

/-- The state with the table word `w` where the next step reads it (the host's fixed name; log 7, log 12). -/
def State.withFetchWord (s : State) (nbits w : Nat) : State :=
  match tableByte nbits w with
  | none => s
  | some v => s.placeTableByte v

end Sys2Proof.Machine
end

