-- ==== Sys2Proof/Safety.lean ====
section
/-! DEFINITION. The terms in which claims speak of runs: the invariant of the block, the port accesses the spec allows it,
the phase transitions of 42_transactions.md R176, and the pseudocode of WRITE and READ (R161, R170) read as a whole, against
a list of the environment's answers, independently of the machine's positions. -/

namespace Sys2Proof.Safety

open Machine

/-! ### The invariant -/

/-- A WRITE or a READ is in progress. -/
def transferring (s : State) : Prop := s.op = .write ∨ s.op = .read

/-- Where `EN_RESTORE` and `finish` of a WRITE or a READ can stand with result `r`: the normal exits of 42_transactions.md
R160 and R171, and the error exit of 60_exceptions.md R195 with the errors of R191 to R193. -/
def exitOk (s : State) : TxResult → Prop
  | .ok => (s.op = .write ∧ s.phase = .address ∧ s.len = 0) ∨ (transferring s ∧ s.phase = .stop)
  | .err .nack => s.op = .write ∧ s.phase = .error
  | .err (.partialTransmit k) => s.op = .write ∧ s.phase = .error ∧ k + 1 < s.len
  | .err .arbitrationLost => transferring s ∧ s.phase = .error

/-- The phase, the operation and the counters that go with each position (42_transactions.md R152, R161, R170). A position
that begins with `test` is never one the block rests at (log 9). -/
def posOk (s : State) : Prop :=
  match s.pos with
  | .idle => s.op = .none ∧ s.phase = .idle
  | .hold => s.op = .configure ∧ s.phase = .idle
  | .baud => s.op = .configure ∧ s.phase = .idle
  | .forceIdle => s.op = .configure ∧ s.phase = .idle
  | .enSave => transferring s ∧ s.phase = .idle
  | .enSet => transferring s ∧ s.phase = .busAcquire
  | .waitIdle => transferring s ∧ s.phase = .busAcquire
  | .sendAddr => transferring s ∧ s.phase = .address
  | .waitWif => s.op = .write ∧ (s.phase = .address ∨ (s.phase = .write ∧ s.k < s.len))
  | .putByte => s.op = .write ∧ s.phase = .write ∧ s.k < s.len
  | .issueStop => transferring s ∧ s.phase = .stop
  | .arbCheck => s.op = .write ∧ s.phase = .stop
  | .pollRead => s.op = .read ∧ s.phase = .read ∧ s.k < s.len
  | .readData => s.op = .read ∧ s.phase = .read ∧ s.k < s.len
  | .respond => s.op = .read ∧ s.phase = .read ∧ s.k < s.len
  | .recvNext => s.op = .read ∧ s.phase = .read ∧ s.k < s.len
  | .quiesce => s.op = .read ∧ s.phase = .stop ∧ s.q < s.cfg.quiesceReads
  | .enRestore r => exitOk s r
  | .complete r => exitOk s r ∨ (r = .ok ∧ s.op = .configure ∧ s.phase = .idle)
  | .testIdle => False
  | .testWif => False
  | .testAck => False
  | .testArb => False
  | .testHold => False
  | .testArbStop => False
  | .testArbRead => False
  | .testRif => False

/-- The invariant: a legal layout (00_scope.md R12), the registers in their ranges (10_state.md R21), as many bytes as `len`
says, the port's memory in canonical form with a byte for each of its registers (R26, R44), and a position that
belongs to the phase and the operation (R23, R24). -/
structure Invariant (s : State) : Prop where
  layout : s.cfg.wf = true
  canonical : Memory.wf s.port
  registers : ∀ r, (Memory.read s.port (regAddr s.cfg r)).isSome = true
  lenInRange : s.len < s.cfg.maxLen
  kInRange : s.k < s.cfg.maxLen
  qInRange : s.q ≤ s.cfg.quiesceReads
  dataLength : s.op = .write → s.data.length = s.len
  bufLength : s.op = .read → s.buf.length = s.len
  position : posOk s

/-- IDLE with no operation and reset not asserted: the block is about to look at the request interface
(42_transactions.md R150). -/
structure Ready (s : State) : Prop where
  pos : s.pos = .idle
  phase : s.phase = .idle
  op : s.op = .none
  noReset : s.resetIn = false

/-- Two states that agree on all but the registers no request hands to the next one (10_state.md R22). -/
def sameButStale (s t : State) : Prop :=
  t = { s with
    addr := t.addr, len := t.len, data := t.data, buf := t.buf, savedEn := t.savedEn, snap := t.snap, k := t.k, q := t.q,
    result := t.result }

/-- A request of `Ready` state `s` has completed in state `t`, and no other has begun: one more result was delivered and no
operation is in progress (42_transactions.md R151). -/
def completedOne (s t : State) : Prop := t.delivered.length = s.delivered.length + 1 ∧ t.op = .none

/-- `n` steps of the machine, stopping at the first fault or refusal: the host's run of it (Host/Core.lean), on State. -/
def run : Nat → State → Host.Outcome State Fault Refusal
  | 0, s => .next s
  | n + 1, s =>
    match step s with
    | .next t => run n t
    | .fault f => .fault f
    | .refused r => .refused r

/-! ### Port accesses -/

/-- The accesses the spec gives the controller in state `s`, each where the pseudocode has it (10_state.md R24) and with the
byte its rule gives. Reads: CTRLA by `EN_SAVE` (41_bus_primitives.md R120); STATUS by the polls, `ARB_CHECK` and `QUIESCE`
(R124, R126, R131, R135, 42_transactions.md R173); DATA by a READ only (10_state.md R33). Writes: HOLD, BAUD and STATUS by
CONFIGURE only (10_state.md R26, R27, R31, R41; 30_encoding.md R91); CTRLA at entry and exit (R90; 41_bus_primitives.md R121,
R122); ADDR by `SEND_ADDR` (R125); DATA by a WRITE only, byte `k` (R127); CMD by RESPOND(Ack), RECV_NEXT and STOP
(30_encoding.md R85, R86), never a repeated start (41_bus_primitives.md R133). -/
def allowed (s : State) : PortAccess → Prop
  | .read .ctrla _ => transferring s ∧ s.pos = .enSave
  | .read .status _ =>
    (transferring s ∧ s.pos = .waitIdle) ∨ (s.op = .write ∧ (s.pos = .waitWif ∨ s.pos = .arbCheck)) ∨
      (s.op = .read ∧ (s.pos = .pollRead ∨ s.pos = .quiesce))
  | .read .data _ => s.op = .read ∧ s.pos = .readData
  | .read .hold _ => False
  | .read .cmd _ => False
  | .read .baud _ => False
  | .read .addr _ => False
  | .write .hold v => s.op = .configure ∧ s.pos = .hold ∧ v = s.cfg.hold
  | .write .baud v => s.op = .configure ∧ s.pos = .baud ∧ v = s.cfg.baud
  | .write .status v => s.op = .configure ∧ s.pos = .forceIdle ∧ v = 1#8 <<< s.cfg.posBusState
  | .write .cmd v =>
    (s.pos = .respond ∧ v = 0x00) ∨ (s.pos = .recvNext ∧ v = 0x02) ∨ (s.pos = .issueStop ∧ v = 0x03)
  | .write .ctrla v => (s.pos = .enSet ∧ v = s.savedEn ||| 0x01) ∨ ((∃ r, s.pos = .enRestore r) ∧ v = s.savedEn)
  | .write .addr v => s.pos = .sendAddr ∧ v = addrByte s.addr s.dir
  | .write .data v => s.op = .write ∧ s.pos = .putByte ∧ s.data[s.k]? = some v

/-- The operation that makes an access, for the registers more than one operation writes: CTRLA, ADDR and CMD belong to a WRITE
or a READ, and on CMD a WRITE writes STOP only (10_state.md R26, R28, R32; 42_transactions.md R165, R173). -/
def madeBy (s : State) : PortAccess → Prop
  | .write .ctrla _ => transferring s
  | .write .addr _ => transferring s
  | .write .cmd v => transferring s ∧ (v ≠ 0x03 → s.op = .read)
  | _ => True

/-- From `s` to `t` the block made one port read: of register `r`, with byte `v` as its value (20_memory.md R60). It used one
of the environment's answers (log 4). -/
def readByte (s t : State) (r : PortReg) (v : Byte) : Prop :=
  t.trace = s.trace ++ [.read r v] ∧ t.answers = s.answers.tail ∧ t.draws = s.draws + 1

/-- The register an access goes to. -/
def accessed : PortAccess → PortReg
  | .read r _ => r
  | .write r _ => r

/-- The accesses of a trace that go to register `r`. -/
def accessesOf (r : PortReg) (l : List PortAccess) : List PortAccess := l.filter (fun a => accessed a == r)

/-- The register an instruction writes in the port, if it writes one, at the state it is executed in (41_bus_primitives.md,
42_transactions.md R152): a request only where its own accesses stand. -/
def storedReg (s : State) : Instr → Option PortReg
  | .configure =>
    if s.canAccept then none
    else if s.op = .configure then
      match s.pos with
      | .hold => some .hold
      | .baud => some .baud
      | .forceIdle => some .status
      | _ => none
    else none
  | .write _ _ => if s.canAccept then none else if s.op = .write ∧ s.pos = .putByte then some .data else none
  | .respondAck => some .cmd
  | .respondNack => some .cmd
  | .recvNext => some .cmd
  | .stop => some .cmd
  | .addrWrite _ => some .addr
  | .addrRead _ => some .addr
  | .enSet _ => some .ctrla
  | .enRestore _ => some .ctrla
  | _ => none

/-! ### Phase transitions -/

/-- The rows of the table of 42_transactions.md R176 for each operation. -/
def transition : Op → Phase → Phase → Prop
  | .write, .idle, .busAcquire => True
  | .write, .busAcquire, .address => True
  | .write, .address, .write => True
  | .write, .address, .idle => True
  | .write, .address, .error => True
  | .write, .write, .stop => True
  | .write, .write, .error => True
  | .write, .stop, .idle => True
  | .write, .stop, .error => True
  | .write, .error, .idle => True
  | .read, .idle, .busAcquire => True
  | .read, .busAcquire, .address => True
  | .read, .address, .read => True
  | .read, .address, .stop => True
  | .read, .read, .stop => True
  | .read, .read, .error => True
  | .read, .stop, .idle => True
  | .read, .error, .idle => True
  | .configure, .idle, .idle => True
  | _, _, _ => False

/-! ### The pseudocode as a whole -/

/-- A loop of status reads that ends on the first byte on which `verdict` answers: the accesses it makes, the answer, and
the environment's answers left over; `none` if the answers run out first. -/
def pollStatus {α : Type} (verdict : Byte → Option α) : List Byte → Option (List PortAccess × α × List Byte)
  | [] => none
  | b :: rest =>
    match verdict b with
    | some v => some ([.read .status b], v, rest)
    | none =>
      match pollStatus verdict rest with
      | none => none
      | some (l, v, rest') => some (.read .status b :: l, v, rest')

/-- `WAIT_IDLE` (41_bus_primitives.md R124). -/
def idleVerdict (c : Config) (b : Byte) : Option Unit := if busState c b = .ok .idle then some () else none

/-- `WAIT_WIF`, then `CLASSIFY` of the snapshot it leaves (41_bus_primitives.md R126, R128). -/
def wifVerdict (c : Config) (b : Byte) : Option Verdict := if wif c b then some (classify c b) else none

/-- A read's poll (42_transactions.md R173): `false` on arbitration loss, which is tested first, `true` on RIF. -/
def rifVerdict (c : Config) (b : Byte) : Option Bool :=
  if arbitrationLost c b then some false else if rif c b then some true else none

/-- What a WRITE or a READ does as a whole. -/
structure Transcript where
  /-- The port accesses, in order. -/
  accesses : List PortAccess
  result : TxResult
  /-- The buffer of a READ at its end. -/
  buffer : List Byte
  /-- The environment's answers not used. -/
  rest : List Byte
  deriving DecidableEq, Repr

/-- BusAcquire: `EN_SAVE`, `EN_SET`, `WAIT_IDLE` (42_transactions.md R162). The saved byte, the accesses, the answers left. -/
def busAcquire (c : Config) : List Byte → Option (Byte × List PortAccess × List Byte)
  | [] => none
  | e :: rest =>
    match pollStatus (idleVerdict c) rest with
    | none => none
    | some (l, _, rest') => some (e, .read .ctrla e :: .write .ctrla (e ||| 0x01) :: l, rest')

/-- The data bytes of a WRITE from index `k` on (42_transactions.md R164, R165): the accesses, the error that ends them if
one does, the answers left. -/
def sendBytes (c : Config) : Nat → List Byte → List Byte → Option (List PortAccess × Option TxError × List Byte)
  | _, [], answers => some ([], none, answers)
  | k, d :: ds, answers =>
    match pollStatus (wifVerdict c) answers with
    | none => none
    | some (l, .nack, rest) =>
      some (.write .data d :: l, some (if ds = [] then .nack else .partialTransmit k), rest)
    | some (l, .arbLost, rest) => some (.write .data d :: l, some .arbitrationLost, rest)
    | some (l, .proceed, rest) =>
      match sendBytes c (k + 1) ds rest with
      | none => none
      | some (l', e, rest') => some (.write .data d :: (l ++ l'), e, rest')

/-- WRITE (42_transactions.md R161 to R166) against the answers; `none` if they run out before it completes. -/
def writeTranscript (c : Config) (addr : Byte) (data answers : List Byte) : Option Transcript :=
  match busAcquire c answers with
  | none => none
  | some (e, l0, rest0) =>
    match pollStatus (wifVerdict c) rest0 with
    | none => none
    | some (l1, v, rest1) =>
      let start := l0 ++ .write .addr (addrByte addr .write) :: l1
      let done := fun (l : List PortAccess) (r : TxResult) (rest : List Byte) =>
        some { accesses := l ++ [.write .ctrla e], result := r, buffer := [], rest := rest : Transcript }
      match v with
      | .nack => done start (.err .nack) rest1
      | .arbLost => done start (.err .arbitrationLost) rest1
      | .proceed =>
        if data = [] then done start .ok rest1
        else
          match sendBytes c 0 data rest1 with
          | none => none
          | some (l2, some err, rest2) => done (start ++ l2) (.err err) rest2
          | some (_, none, []) => none
          | some (l2, none, b :: rest3) =>
            done (start ++ l2 ++ [.write .cmd 0x03, .read .status b])
              (if arbitrationLost c b then .err .arbitrationLost else .ok) rest3

/-- `n` bytes of a READ (42_transactions.md R173): the accesses, the bytes captured, whether all came, the answers left. -/
def receiveBytes (c : Config) : Nat → List Byte → Option (List PortAccess × List Byte × Bool × List Byte)
  | 0, answers => some ([], [], true, answers)
  | n + 1, answers =>
    match pollStatus (rifVerdict c) answers with
    | none => none
    | some (l, false, rest) => some (l, [], false, rest)
    | some (_, true, []) => none
    | some (l, true, d :: rest) =>
      match receiveBytes c n rest with
      | none => none
      | some (l', ds, all, rest') =>
        some (l ++ .read .data d :: .write .cmd 0x00 :: .write .cmd 0x02 :: l', d :: ds, all, rest')

/-- READ (42_transactions.md R170 to R175) against the answers; `none` if they run out before it completes. -/
def readTranscript (c : Config) (addr : Byte) (buffer answers : List Byte) : Option Transcript :=
  match busAcquire c answers with
  | none => none
  | some (e, l0, rest0) =>
    match receiveBytes c buffer.length rest0 with
    | none => none
    | some (l1, got, all, rest1) =>
      let start := l0 ++ .write .addr (addrByte addr .read) :: l1
      let after := got ++ buffer.drop got.length
      if all then
        if rest1.length < c.quiesceReads then none
        else
          some
            { accesses :=
                start ++ .write .cmd 0x03 :: (rest1.take c.quiesceReads).map (fun b => .read .status b) ++ [.write .ctrla e]
              result := .ok
              buffer := after
              rest := rest1.drop c.quiesceReads }
      else some { accesses := start ++ [.write .ctrla e], result := .err .arbitrationLost, buffer := after, rest := rest1 }

end Sys2Proof.Safety
end

