-- ==== Sys2Proof/Certificates/Slice0/Obligations.lean ====
section
/-! DEFINITION. The statements for the provers, each formalising rules of spec/ (OBLIGATIONS.json names them). Every statement
about every state holds for every value of the parameters, which are a field of the state, and for every value of the free
ones. -/

open Sys2Proof Sys2Proof.Machine Sys2Proof.Safety

/-! ### The status decoder (40_status_decoder.md) -/

/-- R101: the error bit is inspected first; then the two-bit field is decoded by the table. -/
def Obligations.BusStateFollowsTable : Prop :=
  ∀ (c : Config) (s : Byte),
    (s.getLsbD c.posBusErr = true → busState c s = .busError) ∧
    (s.getLsbD c.posBusErr = false →
      ((s >>> c.posBusState).toNat % 4 = 0 → busState c s = .ok .unknown) ∧
      ((s >>> c.posBusState).toNat % 4 = 1 → busState c s = .ok .idle) ∧
      ((s >>> c.posBusState).toNat % 4 = 2 → busState c s = .ok .owner) ∧
      ((s >>> c.posBusState).toNat % 4 = 3 → busState c s = .ok .busy))

/-- R103 to R107: each flag is one bit of the byte, and which bit `arbitration_lost` reads is `P_ARB_ALIAS`'s choice. -/
def Obligations.FlagsReadTheirBits : Prop :=
  ∀ (c : Config) (s : Byte),
    (rif c s = true ↔ s.getLsbD c.posRif = true) ∧
    (wif c s = true ↔ s.getLsbD c.posWif = true) ∧
    (ackState c s = if s.getLsbD c.posRxAck = true then .nack else .ack) ∧
    (Machine.clockHeld c s = true ↔ s.getLsbD c.posClkHold = true) ∧
    (arbitrationLost c s = true ↔ s.getLsbD (if c.arbAlias then c.posRxAck else c.posArbLost) = true)

/-- R109: with the alias the decoder cannot tell arbitration loss from NACK; without it, in a legal layout, all four
combinations of the two outputs occur. -/
def Obligations.AliasDecidesWhetherLossShows : Prop :=
  ∀ (c : Config),
    (c.arbAlias = true → ∀ s : Byte, ackState c s = .nack ↔ arbitrationLost c s = true) ∧
    (c.arbAlias = false → c.wf = true → ∀ (a : AckKind) (l : Bool), ∃ s : Byte, ackState c s = a ∧ arbitrationLost c s = l)

/-- R128, R196: the tests of `CLASSIFY`, in their order. -/
def Obligations.ClassifyTestsInOrder : Prop :=
  ∀ (c : Config) (s : Byte),
    (ackState c s = .nack → classify c s = .nack) ∧
    (ackState c s = .ack → arbitrationLost c s = true → classify c s = .arbLost) ∧
    (ackState c s = .ack → arbitrationLost c s = false → Machine.clockHeld c s = true → classify c s = .proceed) ∧
    (ackState c s = .ack → arbitrationLost c s = false → Machine.clockHeld c s = false → classify c s = .arbLost)

/-- R100: executed where its output is not tested, a row of the decoder changes nothing at all: at every position that tests
no output, and at every position that tests another one. That a row may be executed there is the model's choice (log 15). -/
def Obligations.DecoderRowsArePure : Prop :=
  ∀ (i : Instr) (s : State) (q : Query) (b : Byte), encode i = .status q b → s.pos.query ≠ some q → exec i s = .next s

/-! ### Encodings (30_encoding.md) -/

/-- R88: the address byte, as arithmetic and as a concatenation; a WRITE sends it with direction 0, a READ with direction
1. -/
def Obligations.AddressByteIsShiftedAddress : Prop :=
  (∀ a : Byte,
    (addrByte a .write).toNat = a.toNat * 2 % 256 ∧
    (addrByte a .read).toNat = a.toNat * 2 % 256 + 1 ∧
    addrByte a .write = a.extractLsb' 0 7 ++ (0 : BitVec 1) ∧
    addrByte a .read = a.extractLsb' 0 7 ++ (1 : BitVec 1)) ∧
  (∀ s : State, s.pos = .sendAddr →
    (s.op = .write → s.message = some (.addrB (addrByte s.addr .write))) ∧
    (s.op = .read → s.message = some (.addrB (addrByte s.addr .read))))

/-- R89: `a` and `a + 0x80` give the same address byte; address 0 is sent as 0x00 or 0x01; no address byte is refused: every
byte is the address byte of its upper seven bits, in the direction its bit 0 says. -/
def Obligations.AddressBit7IsDropped : Prop :=
  (∀ (a : Byte) (rw : Dir), addrByte (a + 0x80) rw = addrByte a rw) ∧
  addrByte 0x00 .write = 0x00 ∧ addrByte 0x00 .read = 0x01 ∧
  (∀ (c : Config) (v : Byte),
    decode c (.addrB v) =
      .ok (if v.getLsbD 0 then .addrRead (v.extractLsb' 1 7) else .addrWrite (v.extractLsb' 1 7)))

/-- R85, R86: the five command bytes, and no other byte is a command of the block. -/
def Obligations.CommandBytesAreFive : Prop :=
  encode .respondAck = .cmd 0x00 ∧ encode .repStart = .cmd 0x01 ∧ encode .recvNext = .cmd 0x02 ∧
    encode .stop = .cmd 0x03 ∧ encode .respondNack = .cmd 0x04 ∧
    ∀ (c : Config) (v : Byte), 5 ≤ v.toNat → decode c (.cmd v) = .error .reservedCommand

/-- Sanity: messages written out from the spec's encodings decode to the instructions they stand for (R71, R74, R81, R85,
R88, R90), one of each format. -/
def Obligations.KnownMessagesDecode : Prop :=
  decode Config.default (.req { header := 0b00000000, operands := none }) = .ok .configure ∧
  decode Config.default (.res 0b00000011 0) = .ok .resArbitrationLost ∧
  decode Config.default (.status .busState 0b11111001) = .ok (.busStateIdle 0xF9) ∧
  decode Config.default (.cmd 0b00000010) = .ok .recvNext ∧
  decode Config.default (.addrB 0b01010101) = .ok (.addrRead 0b0101010) ∧
  decode Config.default (.ctrlEntry 0b11000001) = .ok (.enSet 0b1100000) ∧
  decode Config.default (.ctrlExit 0b11000000) = .ok (.enRestore 0b11000000)

/-- Decoding an encoded well-formed instruction gives it back: all 28 rows, every operand. -/
def Obligations.DecodeEncodeAgree : Prop := ∀ (c : Config) (i : Instr), i.wf c = true → decode c (encode i) = .ok i

/-- What decodes is well-formed, and encodes to the message it was read from: each message has one meaning. -/
def Obligations.EncodeDecodeAgree : Prop :=
  ∀ (c : Config) (m : Message) (i : Instr), decode c m = .ok i → encode i = m ∧ i.wf c = true

/-! ### The requests (42_transactions.md) -/

/-- R150: acceptance writes the request into the registers and makes no port access. -/
def Obligations.AcceptanceCopiesOperands : Prop :=
  ∀ (s : State) (a : Byte) (bytes : List Byte), s.phase = .idle → s.op = .none →
    exec .configure s = .next { s with requests := s.requests.tail, op := .configure, pos := .hold } ∧
    exec (.write a bytes) s =
      .next { s with requests := s.requests.tail, op := .write, addr := a, len := bytes.length, data := bytes, pos := .enSave } ∧
    exec (.read a bytes) s =
      .next { s with requests := s.requests.tail, op := .read, addr := a, len := bytes.length, buf := bytes, pos := .enSave }

/-- R150: a request that is executed while another operation is in progress changes nothing. -/
def Obligations.RequestsWaitWhileBusy : Prop :=
  ∀ (s : State) (a : Byte) (bytes : List Byte), s.op ≠ .none →
    (s.op ≠ .configure → exec .configure s = .next s) ∧
    (s.op ≠ .write → exec (.write a bytes) s = .next s) ∧
    (s.op ≠ .read → exec (.read a bytes) s = .next s)

/-- R152: the three writes of CONFIGURE, with all they leave unchanged. -/
def Obligations.ConfigureMakesItsWrites : Prop :=
  ∀ (s : State), s.op = .configure →
    (s.pos = .hold → exec .configure s = .next { s with
      pos := .baud, port := Memory.write s.port (regAddr s.cfg .hold) s.cfg.hold,
      trace := s.trace ++ [.write .hold s.cfg.hold] }) ∧
    (s.pos = .baud → exec .configure s = .next { s with
      pos := .forceIdle, port := Memory.write s.port (regAddr s.cfg .baud) s.cfg.baud,
      trace := s.trace ++ [.write .baud s.cfg.baud] }) ∧
    (s.pos = .forceIdle → exec .configure s = .next { s with
      pos := .complete .ok, port := Memory.write s.port (regAddr s.cfg .status) (1#8 <<< s.cfg.posBusState),
      trace := s.trace ++ [.write .status (1#8 <<< s.cfg.posBusState)] })

/-- R152 as a whole: from an idle block that is presented CONFIGURE, five steps (acceptance, three writes, completion) write
HOLD, BAUD and STATUS in that order, deliver Ok, and leave every other field as it was. -/
def Obligations.ConfigureTransaction : Prop :=
  ∀ (s : State) (rest : List Request), Ready s → s.requests = { header := 0x00, operands := none } :: rest →
    run 5 s = .next { s with
      requests := rest
      result := .ok
      port := Memory.write (Memory.write (Memory.write s.port (regAddr s.cfg .hold) s.cfg.hold)
        (regAddr s.cfg .baud) s.cfg.baud) (regAddr s.cfg .status) (1#8 <<< s.cfg.posBusState)
      trace := s.trace ++ [.write .hold s.cfg.hold, .write .baud s.cfg.baud, .write .status (1#8 <<< s.cfg.posBusState)]
      delivered := s.delivered ++ [{ code := 0, index := 0, buffer := none }] }

/-- R161, R120, R123, R127, R135: the accesses WRITE makes itself. The byte a read gets is `s.answer`. -/
def Obligations.WriteMakesItsAccesses : Prop :=
  ∀ (s : State) (a : Byte) (bytes : List Byte), s.op = .write →
    (s.pos = .enSave → exec (.write a bytes) s = .next { s with
      phase := .busAcquire, savedEn := s.answer, pos := .enSet, answers := s.answers.tail, draws := s.draws + 1,
      trace := s.trace ++ [.read .ctrla s.answer] }) ∧
    (∀ p t, (p, t) ∈ [(Pos.waitIdle, Pos.testIdle), (.waitWif, .testWif), (.arbCheck, .testArbStop)] → s.pos = p →
      exec (.write a bytes) s = .next { s with
        snap := s.answer, pos := t, answers := s.answers.tail, draws := s.draws + 1,
        trace := s.trace ++ [.read .status s.answer] }) ∧
    (∀ b, s.pos = .putByte → s.data[s.k]? = some b → exec (.write a bytes) s = .next { s with
      pos := .waitWif, port := Memory.write s.port (regAddr s.cfg .data) b, trace := s.trace ++ [.write .data b] })

/-- R170, R120, R123, R131, R173: the accesses READ makes itself. -/
def Obligations.ReadMakesItsAccesses : Prop :=
  ∀ (s : State) (a : Byte) (bytes : List Byte), s.op = .read →
    (s.pos = .enSave → exec (.read a bytes) s = .next { s with
      phase := .busAcquire, savedEn := s.answer, pos := .enSet, answers := s.answers.tail, draws := s.draws + 1,
      trace := s.trace ++ [.read .ctrla s.answer] }) ∧
    (∀ p t, (p, t) ∈ [(Pos.waitIdle, Pos.testIdle), (.pollRead, .testArbRead)] → s.pos = p →
      exec (.read a bytes) s = .next { s with
        snap := s.answer, pos := t, answers := s.answers.tail, draws := s.draws + 1,
        trace := s.trace ++ [.read .status s.answer] }) ∧
    (s.pos = .readData → s.k < s.buf.length → exec (.read a bytes) s = .next { s with
      buf := s.buf.set s.k s.answer, pos := .respond, answers := s.answers.tail, draws := s.draws + 1,
      trace := s.trace ++ [.read .data s.answer] }) ∧
    (s.pos = .quiesce → exec (.read a bytes) s = .next { s with
      snap := s.answer, q := s.q + 1, pos := if s.q + 1 < s.cfg.quiesceReads then .quiesce else .enRestore .ok,
      answers := s.answers.tail, draws := s.draws + 1, trace := s.trace ++ [.read .status s.answer] })

/-- R57: the byte a read gets is whatever the environment answers, and at each position that reads (R120, R123, R173) the
step puts that byte, and no other, into the trace and into the register the read is for. That the answer is the next one the
state lists, and a byte nothing constrains when it lists none, is the model's choice (log 4). -/
def Obligations.PortReadIsTheEnvironmentsAnswer : Prop :=
  ∀ (s : State) (v : Byte),
    ((∃ rest, s.answers = v :: rest) ∨ (s.answers = [] ∧ v = Config.portDraw s.draws)) →
    s.answer = v ∧
    (s.resetIn = false →
      ((s.op, s.pos) ∈ [(Op.write, Pos.enSave), (.read, .enSave)] →
        ∃ t, step s = .next t ∧ readByte s t .ctrla v ∧ t.savedEn = v) ∧
      ((s.op, s.pos) ∈ [(Op.write, Pos.waitIdle), (.read, .waitIdle), (.write, .waitWif), (.write, .arbCheck),
          (.read, .pollRead), (.read, .quiesce)] →
        ∃ t, step s = .next t ∧ readByte s t .status v ∧ t.snap = v) ∧
      ((s.op, s.pos) = (Op.read, Pos.readData) → s.k < s.buf.length →
        ∃ t, step s = .next t ∧ readByte s t .data v ∧ t.buf = s.buf.set s.k v))

/-! ### Results, commands, address bytes, CTRLA writes -/

/-- R74, R151, R191 to R193: each result row completes the request: the result register, the code and index on the channel,
with the buffer for a READ, whatever the result (log 20); IDLE, NONE; no port access. That a row does so away from its
completion too is the model's choice (log 15). -/
def Obligations.ResultRowsFinish : Prop :=
  ∀ (s : State) (buffer : Option (List Byte)), (buffer = if s.op = .read then some s.buf else none) →
    exec .resOk s = .next { s with
      result := .ok, op := .none, phase := .idle, pos := .idle,
      delivered := s.delivered ++ [{ code := 0, index := 0, buffer := buffer }] } ∧
    exec .resNack s = .next { s with
      result := .err .nack, op := .none, phase := .idle, pos := .idle,
      delivered := s.delivered ++ [{ code := 1, index := 0, buffer := buffer }] } ∧
    (∀ k, exec (.resPartialTransmit k) s = .next { s with
      result := .err (.partialTransmit k), op := .none, phase := .idle, pos := .idle,
      delivered := s.delivered ++ [{ code := 2, index := k, buffer := buffer }] }) ∧
    exec .resArbitrationLost s = .next { s with
      result := .err .arbitrationLost, op := .none, phase := .idle, pos := .idle,
      delivered := s.delivered ++ [{ code := 3, index := 0, buffer := buffer }] }

/-- R129, R130: RESPOND and RECV_NEXT write CMD and nothing else, wherever they are executed (log 15); a read goes on with
RECV_NEXT after the response, and with the next byte or STOP after that. That RECV_NEXT follows RESPOND(Nack) too is the
model's choice (log 14). -/
def Obligations.ResponseAndReceiveWriteCommand : Prop :=
  ∀ (s : State),
    exec .respondAck s = .next { s with
      port := Memory.write s.port (regAddr s.cfg .cmd) 0x00, trace := s.trace ++ [.write .cmd 0x00],
      pos := if s.pos = .respond then .recvNext else s.pos } ∧
    exec .respondNack s = .next { s with
      port := Memory.write s.port (regAddr s.cfg .cmd) 0x04, trace := s.trace ++ [.write .cmd 0x04],
      pos := if s.pos = .respond then .recvNext else s.pos } ∧
    exec .recvNext s = .next
      (let t : State := { s with
        port := Memory.write s.port (regAddr s.cfg .cmd) 0x02, trace := s.trace ++ [.write .cmd 0x02] }
      if s.pos ≠ .recvNext then t
      else if s.k + 1 < s.len then { t with k := s.k + 1, pos := .pollRead }
      else { t with phase := .stop, pos := .issueStop })

/-- R132: STOP writes CMD and nothing else; a write goes on with the arbitration check (R165), a read with the quiescence
reads if there are any (R175, R131). Executed anywhere else, STOP makes its write and moves nothing: the model's choice
(log 15). -/
def Obligations.StopWritesCommand : Prop :=
  ∀ (s : State),
    exec .stop s = .next
      (let t : State := { s with
        port := Memory.write s.port (regAddr s.cfg .cmd) 0x03, trace := s.trace ++ [.write .cmd 0x03] }
      if s.pos ≠ .issueStop then t
      else if s.op ≠ .read then { t with pos := .arbCheck }
      else if 0 < s.cfg.quiesceReads then { t with q := 0, pos := .quiesce }
      else { t with q := 0, pos := .enRestore .ok })

/-- R133: no step writes 0x01 to CMD, and none writes 0x04 (R85, R129); REPSTART is refused by its name in every state
(log 14). -/
def Obligations.RepeatedStartIsNeverIssued : Prop :=
  (∀ s : State, exec .repStart s = .refused .repeatedStartNeverIssued) ∧
  (∀ s t : State, step s = .next t → ∀ v : Byte, t.trace = s.trace ++ [.write .cmd v] → v ≠ 0x01 ∧ v ≠ 0x04)

/-- R125: SEND_ADDR writes ADDR and nothing else; a write waits for WIF, a read polls for its first byte or stops. Executed
anywhere else, it makes its write and moves nothing: the model's choice (log 15). -/
def Obligations.AddressRowsSendAddress : Prop :=
  ∀ (s : State) (a : BitVec 7) (i : Instr) (v : Byte),
    (i, v) ∈ [(Instr.addrWrite a, a ++ (0 : BitVec 1)), (.addrRead a, a ++ (1 : BitVec 1))] →
    exec i s = .next
      (let t : State := { s with
        port := Memory.write s.port (regAddr s.cfg .addr) v, trace := s.trace ++ [.write .addr v] }
      if s.pos ≠ .sendAddr then t
      else if s.op ≠ .read then { t with pos := .waitWif }
      else if s.len = 0 then { t with phase := .stop, pos := .issueStop }
      else { t with phase := .read, k := 0, pos := .pollRead })

/-- R121, R122: EN_SET writes the saved byte with ENABLE set, EN_RESTORE the byte itself; nothing else changes. Executed away
from their positions, they make their writes and move nothing: the model's choice (log 15). -/
def Obligations.EnableIsSetAndRestored : Prop :=
  ∀ (s : State),
    (∀ e : BitVec 7, exec (.enSet e) s = .next { s with
      port := Memory.write s.port (regAddr s.cfg .ctrla) (e ++ (1 : BitVec 1)),
      trace := s.trace ++ [.write .ctrla (e ++ (1 : BitVec 1))],
      pos := if s.pos = .enSet then .waitIdle else s.pos }) ∧
    (∀ e : Byte, exec (.enRestore e) s = .next { s with
      port := Memory.write s.port (regAddr s.cfg .ctrla) e, trace := s.trace ++ [.write .ctrla e],
      pos := match s.pos with
        | .enRestore r => .complete r
        | p => p })

/-- R121, R122 in a run: at the entry of a WRITE or a READ one step writes `saved_en | 0x01` to CTRLA; at each exit (R160,
R171, R195) one step writes `saved_en`, whatever bit 0 of it is, and the completion follows. -/
def Obligations.StepsWriteTheSavedEnable : Prop :=
  ∀ (s : State), s.resetIn = false →
    (s.pos = .enSet → step s = .next { s with
      port := Memory.write s.port (regAddr s.cfg .ctrla) (s.savedEn ||| 0x01),
      trace := s.trace ++ [.write .ctrla (s.savedEn ||| 0x01)], pos := .waitIdle }) ∧
    (∀ r, s.pos = .enRestore r → step s = .next { s with
      port := Memory.write s.port (regAddr s.cfg .ctrla) s.savedEn,
      trace := s.trace ++ [.write .ctrla s.savedEn], pos := .complete r })

/-- The bytes of the port that an instruction does not store to stay as they were; the one it stores to holds the byte the
trace records; an instruction that stores nothing leaves all of them (20_memory.md R53, R59, R62). -/
def Obligations.PortWritesHaveAFrame : Prop :=
  ∀ (i : Instr) (s t : State), exec i s = .next t →
    (storedReg s i = none → ∀ a, Memory.read t.port a = Memory.read s.port a) ∧
    (∀ r, storedReg s i = some r →
      (∀ a, a ≠ regAddr s.cfg r → Memory.read t.port a = Memory.read s.port a) ∧
      ∃ v, t.trace = s.trace ++ [.write r v] ∧ Memory.read t.port (regAddr s.cfg r) = some v)

/-! ### The outputs of the decoder as branches -/

/-- R124, R194: where `bus_state` is tested, only Idle ends the wait; the other four results read again. -/
def Obligations.OnlyIdleEndsTheWait : Prop :=
  ∀ (s : State) (b : Byte), s.pos = .testIdle →
    (busState s.cfg b = .ok .idle → exec (.busStateIdle b) s = .next { s with phase := .address, pos := .sendAddr }) ∧
    (busState s.cfg b = .ok .unknown → exec (.busStateUnknown b) s = .next { s with pos := .waitIdle }) ∧
    (busState s.cfg b = .ok .owner → exec (.busStateOwner b) s = .next { s with pos := .waitIdle }) ∧
    (busState s.cfg b = .ok .busy → exec (.busStateBusy b) s = .next { s with pos := .waitIdle }) ∧
    (busState s.cfg b = .busError → exec (.busStateBusError b) s = .next { s with pos := .waitIdle })

/-- R126, R173: the interrupt flags end the poll that tests them. -/
def Obligations.InterruptFlagsEndTheirPolls : Prop :=
  ∀ (s : State) (b : Byte),
    (s.pos = .testWif → wif s.cfg b = true → exec (.writeInterruptFlag b) s = .next { s with pos := .testAck }) ∧
    (s.pos = .testRif → rif s.cfg b = true → exec (.readInterruptFlag b) s = .next { s with pos := .readData })

/-- R128, R163 to R166: the rows of `CLASSIFY`. NACK is `Nack` for the address byte and the last byte, `PartialTransmit(k)`
for an earlier one; ACK goes on to the arbitration test; clock held is PROCEED. -/
def Obligations.ClassificationRowsBranch : Prop :=
  ∀ (s : State) (b : Byte),
    (s.pos = .testAck → ackState s.cfg b = .ack → exec (.ackStateAck b) s = .next { s with pos := .testArb }) ∧
    (s.pos = .testAck → ackState s.cfg b = .nack → exec (.ackStateNack b) s = .next { s with
      phase := .error
      pos := .enRestore (.err (if s.phase ≠ .address ∧ s.k + 1 < s.len then .partialTransmit s.k else .nack)) }) ∧
    (s.pos = .testHold → Machine.clockHeld s.cfg b = true → exec (.clockHeld b) s = .next
      (if s.phase = .address then
        if s.len = 0 then { s with pos := .enRestore .ok } else { s with phase := .write, k := 0, pos := .putByte }
      else if s.k + 1 < s.len then { s with k := s.k + 1, pos := .putByte }
      else { s with phase := .stop, pos := .issueStop }))

/-- R107, R128, R135, R173: arbitration loss is `ArbitrationLost` at each of the three places that test it, under either
value of `P_ARB_ALIAS` by the row of that value; the row of the other value changes nothing (log 15). -/
def Obligations.ArbitrationRowsRaise : Prop :=
  ∀ (s : State) (b : Byte), s.pos ∈ [Pos.testArb, .testArbStop, .testArbRead] → arbitrationLost s.cfg b = true →
    (s.cfg.arbAlias = true →
      exec (.arbitrationLostAliased b) s = .next { s with phase := .error, pos := .enRestore (.err .arbitrationLost) } ∧
      exec (.arbitrationLostSeparate b) s = .next s) ∧
    (s.cfg.arbAlias = false →
      exec (.arbitrationLostSeparate b) s = .next { s with phase := .error, pos := .enRestore (.err .arbitrationLost) } ∧
      exec (.arbitrationLostAliased b) s = .next s)

/-! ### Steps -/

/-- A step runs the decoded instruction: where the position puts a message on a channel and it decodes to `i`, and where the
position is an access of the request in progress `i`, the step is `exec i` followed by the tests of the snapshot it leaves
(log 9). -/
def Obligations.StepRunsTheDecodedInstruction : Prop :=
  ∀ (s : State) (i : Instr), s.resetIn = false →
    ((∃ m, s.message = some m ∧ decode s.cfg m = .ok i) ∨
      (s.message = none ∧ s.pos.ownedBy s.op = true ∧ s.requestInProgress = some i)) →
    step s = thenSettle (exec i s)

/-- The model's choice (log 7): with no request presented, the idle block stays as it is. -/
def Obligations.IdleBlockWaits : Prop := ∀ (s : State), Ready s → s.requests = [] → step s = .next s

/-- R73: a header with OP in 3..7 or with a bit of 7:3 set is refused. A refusal carries no next state: nothing is accepted,
no access is made. -/
def Obligations.ReservedHeaderIsRefused : Prop :=
  ∀ (s : State) (r : Request) (rest : List Request), Ready s → s.requests = r :: rest →
    (3 ≤ (r.header &&& 0b00000111).toNat ∨ r.header &&& 0b11111000 ≠ 0) → step s = .refused .notARequest

/-- R124: one iteration of `WAIT_IDLE`, its read and its test in one step. -/
def Obligations.WaitIdleStep : Prop :=
  ∀ (s : State) (b : Byte) (rest : List Byte), s.resetIn = false → transferring s → s.pos = .waitIdle →
    s.answers = b :: rest →
    step s = .next
      (let t : State := { s with
        snap := b, answers := rest, draws := s.draws + 1, trace := s.trace ++ [.read .status b] }
      if busState s.cfg b = .ok .idle then { t with phase := .address, pos := .sendAddr } else t)

/-- R126, R128, R163 to R166: one iteration of `WAIT_WIF` with the classification of the snapshot that ends it: the machine's
tests agree with `CLASSIFY`. -/
def Obligations.WaitWifStepClassifies : Prop :=
  ∀ (s : State) (b : Byte) (rest : List Byte), s.resetIn = false → s.op = .write → s.pos = .waitWif →
    s.answers = b :: rest →
    step s = .next
      (let t : State := { s with
        snap := b, answers := rest, draws := s.draws + 1, trace := s.trace ++ [.read .status b] }
      if wif s.cfg b = false then t
      else match classify s.cfg b with
        | .nack => { t with
            phase := .error
            pos := .enRestore (.err (if s.phase ≠ .address ∧ s.k + 1 < s.len then .partialTransmit s.k else .nack)) }
        | .arbLost => { t with phase := .error, pos := .enRestore (.err .arbitrationLost) }
        | .proceed =>
          if s.phase = .address then
            if s.len = 0 then { t with pos := .enRestore .ok } else { t with phase := .write, k := 0, pos := .putByte }
          else if s.k + 1 < s.len then { t with k := s.k + 1, pos := .putByte }
          else { t with phase := .stop, pos := .issueStop })

/-- R173, R196: one iteration of a read's poll: arbitration loss is tested first, then RIF. -/
def Obligations.ReadPollStep : Prop :=
  ∀ (s : State) (b : Byte) (rest : List Byte), s.resetIn = false → s.op = .read → s.pos = .pollRead →
    s.answers = b :: rest →
    step s = .next
      (let t : State := { s with
        snap := b, answers := rest, draws := s.draws + 1, trace := s.trace ++ [.read .status b] }
      if arbitrationLost s.cfg b = true then { t with phase := .error, pos := .enRestore (.err .arbitrationLost) }
      else if rif s.cfg b = true then { t with pos := .readData }
      else t)

/-- R135, R165: `ARB_CHECK` is one read; true is `ArbitrationLost`, false the normal exit. -/
def Obligations.ArbCheckStep : Prop :=
  ∀ (s : State) (b : Byte) (rest : List Byte), s.resetIn = false → s.op = .write → s.pos = .arbCheck →
    s.answers = b :: rest →
    step s = .next
      (let t : State := { s with
        snap := b, answers := rest, draws := s.draws + 1, trace := s.trace ++ [.read .status b] }
      if arbitrationLost s.cfg b = true then { t with phase := .error, pos := .enRestore (.err .arbitrationLost) }
      else { t with pos := .enRestore .ok })

/-- R131, R175: after a read's STOP, `P_QUIESCE_READS` status reads are made, whatever they answer, and then the read takes
its normal exit (R171). That `q` is left at the number of reads made is the model's choice (log 16, DEDUCED). -/
def Obligations.QuiescenceReadsAreMade : Prop :=
  ∀ (s : State) (l rest : List Byte), s.resetIn = false → s.op = .read → s.pos = .issueStop →
    s.answers = l ++ rest → l.length = s.cfg.quiesceReads →
    run (1 + l.length) s = .next { s with
      port := Memory.write s.port (regAddr s.cfg .cmd) 0x03
      pos := .enRestore .ok
      q := s.cfg.quiesceReads
      snap := l.getLastD s.snap
      answers := rest
      draws := s.draws + l.length
      trace := s.trace ++ .write .cmd 0x03 :: l.map (fun b => PortAccess.read .status b) }

/-- R230: the three polls have no bound. However many status bytes come that do not end the poll, the block reads them all
and stands where it stood. -/
def Obligations.PollsAreUnbounded : Prop :=
  ∀ (s : State) (l rest : List Byte), s.resetIn = false → s.answers = l ++ rest →
    ((s.pos = .waitIdle ∧ transferring s ∧ ∀ b ∈ l, busState s.cfg b ≠ .ok .idle) ∨
      (s.pos = .waitWif ∧ s.op = .write ∧ ∀ b ∈ l, wif s.cfg b = false) ∨
      (s.pos = .pollRead ∧ s.op = .read ∧ ∀ b ∈ l, arbitrationLost s.cfg b = false ∧ rif s.cfg b = false)) →
    run l.length s = .next { s with
      snap := l.getLastD s.snap
      answers := rest
      draws := s.draws + l.length
      trace := s.trace ++ l.map (fun b => PortAccess.read .status b) }

/-- R195: the error exit. From the entry of `raise e` two steps write the saved byte to CTRLA and deliver `Err(e)` (R151;
for a READ with its buffer, log 20); there is no other access. -/
def Obligations.ErrorExitRestoresAndDelivers : Prop :=
  ∀ (s : State) (e : TxError), s.resetIn = false → lengthFits s.cfg (resultIndex (.err e)) = true →
    run 2 { s with phase := .error, pos := .enRestore (.err e) } = .next { s with
      phase := .idle
      op := .none
      pos := .idle
      result := .err e
      port := Memory.write s.port (regAddr s.cfg .ctrla) s.savedEn
      trace := s.trace ++ [.write .ctrla s.savedEn]
      delivered := s.delivered ++
        [{ code := resultCode (.err e), index := resultIndex (.err e), buffer := if s.op = .read then some s.buf else none }] }

/-- R220: reset abandons the request with no result and no port access. The values of the registers the spec leaves
unspecified are the model's choice (log 3, log 8). -/
def Obligations.ResetAbandonsTheRequest : Prop :=
  ∀ (s : State), s.resetIn = true → ∃ t, step s = .next t ∧ t.phase = .idle ∧ t.op = .none ∧ t.pos = .idle ∧
    t.resetIn = false ∧ t.delivered = s.delivered ∧ t.trace = s.trace ∧ t.port = Memory.afterReset s.cfg (s.resets + 1) ∧
    t.resets = s.resets + 1 ∧ t.requests = s.requests ∧ t.cfg = s.cfg ∧ t.answers = s.answers ∧ t.draws = s.draws

/-- R44, R221: a reset, the first or a later one, leaves each of the seven port registers a byte that nothing constrains,
whatever was delivered to it before. That the byte is the free value of the reset's number is the model's mechanism (log 5). -/
def Obligations.ResetLeavesThePortUnspecified : Prop :=
  (∀ r, Memory.read State.reset.port (regAddr State.reset.cfg r) =
    some (Config.portReset 0 (regAddr State.reset.cfg r))) ∧
  (∀ (s t : State), s.resetIn = true → step s = .next t →
    ∀ r, Memory.read t.port (regAddr s.cfg r) = some (Config.portReset (s.resets + 1) (regAddr s.cfg r)))

/-- R43: the state after reset: IDLE, NONE, no request in progress, no result pending. That the trace
starts empty, and what the port registers hold (free bytes), is the model's mechanism (log 5, log 6). -/
def Obligations.ResetStateIsIdle : Prop :=
  State.reset.phase = .idle ∧ State.reset.op = .none ∧ State.reset.pos = .idle ∧ State.reset.delivered = [] ∧
    State.reset.trace = [] ∧ State.reset.port = Memory.afterReset State.reset.cfg 0

/-! ### Invariants -/

/-- The invariant holds at reset. The parameters are the defaults of R12, the OPEN ones free (log 2); the values of the
registers the spec leaves unspecified are the model's choice (log 3). -/
def Obligations.InvariantHoldsAtReset : Prop := Invariant State.reset

/-- Every step keeps the invariant: a legal layout, the registers in their ranges (R21), the port's memory in canonical form
with a byte for each register (R26, R44), and a position that belongs to the phase and the operation (R23, R24). -/
def Obligations.StepKeepsTheInvariant : Prop := ∀ (s t : State), Invariant s → step s = .next t → Invariant t

/-- R22, R190: from a state that meets the invariant no step faults, and a step that refuses has been presented a request
that does not decode. R73 asks for the refusal of a reserved header; that a legal header whose operands do not fit R71 and
R72 is refused too, as `malformedRequest`, is the model's choice (log 13). Which of the two it is follows from the decoding
error: `notARequest` exactly for a reserved header. -/
def Obligations.NoFaultUnderTheInvariant : Prop :=
  ∀ (s : State), Invariant s →
    (∀ f, step s ≠ .fault f) ∧
    (∀ r, step s = .refused r →
      s.pos = .idle ∧ (r = .notARequest ∨ r = .malformedRequest) ∧
        ∃ q rest e, s.requests = q :: rest ∧ decode s.cfg (.req q) = .error e ∧ r = refusalOf e ∧
          (r = .notARequest ↔ (3 ≤ (q.header &&& 0b00000111).toNat ∨ q.header &&& 0b11111000 ≠ 0)))

/-- No step changes the parameters. -/
def Obligations.StepKeepsTheParameters : Prop := ∀ (s t : State), step s = .next t → t.cfg = s.cfg

/-- R6, R24: a step makes exactly one port access, or completes the request with one result, or looks at the request
interface and does neither. -/
def Obligations.StepMakesOneAccessOrCompletes : Prop :=
  ∀ (s t : State), Invariant s → s.resetIn = false → step s = .next t →
    (s.pos = .idle ∧ t.trace = s.trace ∧ t.delivered = s.delivered) ∨
    ((∃ r, s.pos = .complete r) ∧ t.trace = s.trace ∧ ∃ d, t.delivered = s.delivered ++ [d]) ∨
    (s.pos ≠ .idle ∧ (∀ r, s.pos ≠ .complete r) ∧ t.delivered = s.delivered ∧ ∃ a, t.trace = s.trace ++ [a])

/-- R26, R33, R85, R86, R88, R90, R91, R125, R127, R133: in every state, every access a step makes is one the spec gives the
controller there (`allowed`): CTRLA, STATUS and DATA are the only registers read, each where its rule reads it; HOLD, BAUD and
STATUS are written by CONFIGURE only, DATA is written by a WRITE and read by a READ only; each register is written only with
the byte its rule gives in that state. Under the invariant the CTRLA, ADDR and CMD writes belong to a WRITE or a READ, and the
CMD writes other than STOP to a READ (`madeBy`). -/
def Obligations.OnlyAllowedAccesses : Prop :=
  ∀ (s t : State), step s = .next t → ∃ l, t.trace = s.trace ++ l ∧ ∀ a ∈ l, allowed s a ∧ (Invariant s → madeBy s a)

/-- R176: the phase changes only as the table says. -/
def Obligations.PhaseFollowsTheTable : Prop :=
  ∀ (s t : State), Invariant s → s.resetIn = false → step s = .next t →
    t.phase = s.phase ∨ transition s.op s.phase t.phase

/-- R191, R192, R193: READ never completes with `Nack` or `PartialTransmit`, CONFIGURE never with an error. -/
def Obligations.ErrorsOfEachRequest : Prop :=
  ∀ (s t : State) (d : Delivery), Invariant s → s.resetIn = false → step s = .next t → t.delivered = s.delivered ++ [d] →
    (s.op = .configure → d.code = 0) ∧ (s.op = .read → d.code = 0 ∨ d.code = 3) ∧
    (s.op = .write → d.code = 2 → d.index + 1 < s.len) ∧ (d.code ≠ 2 → d.index = 0)

/-! ### Requests as a whole -/

/-- R63, R150: what is presented on the request interface has no influence on a request in progress, and stays there. -/
def Obligations.BusyBlockIgnoresRequests : Prop :=
  ∀ (s : State) (presented : List Request), s.resetIn = false → s.pos ≠ .idle →
    (∀ t, step s = .next t →
      t.requests = s.requests ∧ step { s with requests := presented } = .next { t with requests := presented }) ∧
    (∀ f, step s = .fault f → step { s with requests := presented } = .fault f)

/-- R22: nothing but IDLE and NONE survives from one request to the next: two idle blocks that differ only in the other
registers make the same accesses and deliver the same results, however long they run. -/
def Obligations.StaleRegistersHaveNoInfluence : Prop :=
  ∀ (s t u : State) (n : Nat), Ready s → sameButStale s t → run n s = .next u →
    ∃ v, run n t = .next v ∧ v.trace = u.trace ∧ v.delivered = u.delivered ∧ v.phase = u.phase ∧ v.op = u.op ∧
      v.port = u.port ∧ v.requests = u.requests

/-- R161 to R166, R195: a WRITE does what its pseudocode, read as a whole, does: from an idle block that is presented the
request, when the environment's listed answers (log 4) let it complete, the block makes those accesses and no other, delivers
that result, and uses no more answers. Runs that never complete (R230), and runs that go on past the listed answers, are left
out. -/
def Obligations.WriteRunsItsPseudocode : Prop :=
  ∀ (s : State) (a : Byte) (bytes : List Byte) (rest : List Request) (w : Transcript), Ready s →
    s.requests = { header := 0x01, operands := some { addr := a, len := bytes.length, bytes := bytes } } :: rest →
    lengthFits s.cfg bytes.length = true → writeTranscript s.cfg a bytes s.answers = some w →
    ∃ t, run (w.accesses.length + 2) s = .next t ∧ t.trace = s.trace ++ w.accesses ∧
      t.delivered = s.delivered ++ [{ code := resultCode w.result, index := resultIndex w.result, buffer := none }] ∧
      t.answers = w.rest ∧ t.requests = rest ∧ Ready t ∧ t.cfg = s.cfg ∧ t.result = w.result

/-- R170 to R175, R195: a READ does what its pseudocode, read as a whole, does, and delivers the buffer with the bytes it
captured (with an error too, log 20). As for WRITE, runs that never complete (R230), and runs that go on past the listed
answers (log 4), are left out. -/
def Obligations.ReadRunsItsPseudocode : Prop :=
  ∀ (s : State) (a : Byte) (bytes : List Byte) (rest : List Request) (w : Transcript), Ready s →
    s.requests = { header := 0x02, operands := some { addr := a, len := bytes.length, bytes := bytes } } :: rest →
    lengthFits s.cfg bytes.length = true → readTranscript s.cfg a bytes s.answers = some w →
    ∃ t, run (w.accesses.length + 2) s = .next t ∧ t.trace = s.trace ++ w.accesses ∧
      t.delivered =
        s.delivered ++ [{ code := resultCode w.result, index := resultIndex w.result, buffer := some w.buffer }] ∧
      t.answers = w.rest ∧ t.requests = rest ∧ Ready t ∧ t.cfg = s.cfg ∧ t.result = w.result

/-- R177, completing paths: on every run in which a WRITE or a READ completes, its first access reads CTRLA, its last writes
that byte back, one write of it with ENABLE set lies between, and CTRLA is accessed nowhere else. The path that never
completes is `EnableIsHeldUntilTheExit`. -/
def Obligations.EnableIsSymmetric : Prop :=
  ∀ (s t : State) (r : Request) (rest : List Request) (n : Nat), Invariant s → Ready s → s.requests = r :: rest →
    (r.header = 0x01 ∨ r.header = 0x02) → run n s = .next t → completedOne s t →
    ∃ e l, t.trace = s.trace ++ l ∧ l.head? = some (.read .ctrla e) ∧ l.getLast? = some (.write .ctrla e) ∧
      accessesOf .ctrla l = [.read .ctrla e, .write .ctrla (e ||| 0x01), .write .ctrla e]

/-- R177, before the exit, and so on the path that never completes: as long as a WRITE or a READ has not reached its exit, the
one read of CTRLA and the one write of it with ENABLE set are its only accesses of CTRLA: the unit stays enabled. `n` counts
the acceptance and at least those two accesses. -/
def Obligations.EnableIsHeldUntilTheExit : Prop :=
  ∀ (s t : State) (r : Request) (rest : List Request) (n : Nat), Invariant s → Ready s → s.requests = r :: rest →
    (r.header = 0x01 ∨ r.header = 0x02) → 3 ≤ n → run n s = .next t → t.delivered = s.delivered →
    (∀ x, t.pos ≠ .complete x) →
    ∃ e l, t.trace = s.trace ++ l ∧ l.head? = some (.read .ctrla e) ∧
      accessesOf .ctrla l = [.read .ctrla e, .write .ctrla (e ||| 0x01)]

/-- R166: a WRITE with no data makes no access of DATA and none of CMD, on every run in which it completes. -/
def Obligations.EmptyWriteSendsNoData : Prop :=
  ∀ (s t : State) (a : Byte) (rest : List Request) (n : Nat), Invariant s → Ready s →
    s.requests = { header := 0x01, operands := some { addr := a, len := 0, bytes := [] } } :: rest →
    run n s = .next t → completedOne s t →
    ∃ l, t.trace = s.trace ++ l ∧ accessesOf .data l = [] ∧ accessesOf .cmd l = [] ∧
      accessesOf .addr l = [.write .addr (addrByte a .write)]

/-- R175: a READ into a zero-length buffer reads no data byte, issues STOP, and completes with Ok and the empty buffer, on
every run in which it completes. -/
def Obligations.EmptyReadStopsAndSucceeds : Prop :=
  ∀ (s t : State) (a : Byte) (rest : List Request) (n : Nat), Invariant s → Ready s →
    s.requests = { header := 0x02, operands := some { addr := a, len := 0, bytes := [] } } :: rest →
    run n s = .next t → completedOne s t →
    ∃ l, t.trace = s.trace ++ l ∧ accessesOf .data l = [] ∧ accessesOf .cmd l = [.write .cmd 0x03] ∧
      accessesOf .addr l = [.write .addr (addrByte a .read)] ∧
      t.delivered = s.delivered ++ [{ code := 0, index := 0, buffer := some [] }]
end

