-- ==== Sys2Proof/Laws/Memory.lean ====
section
/-! SUPPORT. The laws of the port's memory: a read after a write, and the canonical form is kept by every operation and holds
at reset. -/

namespace Sys2Proof.Machine

@[simp] theorem memory_read_nil (a : Nat) : Memory.read [] a = none := rfl

theorem memory_read_cons (x : Host.Cell) (m : Memory) (a : Nat) :
    Memory.read (x :: m) a = if x.1 = a then some x.2 else Memory.read m a := rfl

/-- A read after a write: the byte written at its address, what was there before at every other. -/
theorem memory_read_write (m : Memory) (a b : Nat) (v : Byte) :
    Memory.read (Memory.write m a v) b = if b = a then some v else Memory.read m b := by
  induction m with
  | nil => simp [Memory.write, Memory.read, eq_comm]
  | cons x m ih =>
    by_cases hb : b = a
    · subst hb
      unfold Memory.write
      split
      · simp [memory_read_cons]
      · split
        · simp [memory_read_cons]
        · rename_i h
          simp [memory_read_cons, h, ih]
    · unfold Memory.write
      split
      · simp [memory_read_cons, Ne.symm hb]
      · split
        · subst_vars
          simp [memory_read_cons, Ne.symm hb]
        · simp [memory_read_cons, hb, ih]

@[simp] theorem memory_read_write_same (m : Memory) (a : Nat) (v : Byte) : Memory.read (Memory.write m a v) a = some v := by
  simp [memory_read_write]

theorem memory_read_write_other (m : Memory) (a b : Nat) (v : Byte) (h : b ≠ a) :
    Memory.read (Memory.write m a v) b = Memory.read m b := by
  simp [memory_read_write, h]

/-- The addresses listed after a write. -/
theorem memory_mem_write (m : Memory) (a : Nat) (v : Byte) (x : Host.Cell) (h : x ∈ Memory.write m a v) :
    x.1 = a ∨ x ∈ m := by
  induction m with
  | nil => simp_all [Memory.write]
  | cons y m ih =>
    unfold Memory.write at h
    split at h
    · simp only [List.mem_cons] at h ⊢
      rcases h with rfl | h | h <;> simp_all
    · split at h
      · simp only [List.mem_cons] at h ⊢
        rcases h with rfl | h <;> simp_all
      · simp only [List.mem_cons] at h ⊢
        rcases h with rfl | h
        · simp
        · rcases ih h with h | h <;> simp [h]

/-- A write keeps the canonical form. -/
theorem memory_write_wf (m : Memory) (a : Nat) (v : Byte) (h : Memory.wf m) : Memory.wf (Memory.write m a v) := by
  induction m with
  | nil => simp [Memory.write, Memory.wf]
  | cons x m ih =>
    obtain ⟨hx, hm⟩ := List.pairwise_cons.mp h
    unfold Memory.write
    split
    · rename_i hax
      refine List.pairwise_cons.mpr ⟨fun y hy => ?_, h⟩
      rcases List.mem_cons.mp hy with rfl | hy
      · exact hax
      · exact Nat.lt_trans hax (hx y hy)
    · split
      · subst_vars
        exact List.pairwise_cons.mpr ⟨fun y hy => hx y hy, hm⟩
      · refine List.pairwise_cons.mpr ⟨fun y hy => ?_, ih hm⟩
        rcases memory_mem_write m a v y hy with h1 | h1
        · omega
        · exact hx y h1

/-- The port after a reset has the canonical form. -/
theorem memory_afterReset_wf (c : Config) (n : Nat) : Memory.wf (Memory.afterReset c n) := by
  unfold Memory.afterReset
  induction portRegs with
  | nil => exact List.Pairwise.nil
  | cons r l ih => exact memory_write_wf _ _ _ ih

/-- After a reset every register holds its free byte. -/
@[simp] theorem memory_read_afterReset (c : Config) (n : Nat) (r : PortReg) :
    Memory.read (Memory.afterReset c n) (regAddr c r) = some (Config.portReset n (regAddr c r)) := by
  have h : r ∈ portRegs := by cases r <;> decide
  unfold Memory.afterReset
  generalize portRegs = l at h
  induction l with
  | nil => cases h
  | cons x l ih =>
    rw [List.foldr_cons, memory_read_write]
    split
    · rename_i heq
      rw [heq]
    · rename_i hne
      rcases List.mem_cons.mp h with rfl | h
      · exact absurd rfl hne
      · exact ih h

/-- A write leaves no address without its byte. -/
theorem memory_isSome_write (m : Memory) (a b : Nat) (v : Byte) (h : (Memory.read m b).isSome = true) :
    (Memory.read (Memory.write m a v) b).isSome = true := by
  rw [memory_read_write]
  split
  · rfl
  · exact h

/-- The reset memory has the canonical form. -/
theorem memory_reset_wf : Memory.wf State.reset.port := memory_afterReset_wf _ _

/-- The one operation that writes the port keeps the canonical form. -/
theorem portWrite_wf (s : State) (r : PortReg) (v : Byte) (h : Memory.wf s.port) : Memory.wf (s.portWrite r v).port :=
  memory_write_wf _ _ _ h

end Sys2Proof.Machine
end

