-- ==== Sys2Proof/Laws/Operands.lean ====
section
/-! SUPPORT. The small lemmas of the operand forms: the command bytes, and the byte fields that a decoder takes apart and an
encoder puts together. -/

namespace Sys2Proof.Machine

@[simp] theorem cmdByte_respondAck : cmdByte (ackActBit .ack) (mcmdBits .noAct) = 0x00 := rfl
@[simp] theorem cmdByte_respondNack : cmdByte (ackActBit .nack) (mcmdBits .noAct) = 0x04 := rfl
@[simp] theorem cmdByte_recvNext : cmdByte (ackActBit .ack) (mcmdBits .recvTrans) = 0x02 := rfl
@[simp] theorem cmdByte_stop : cmdByte (ackActBit .ack) (mcmdBits .stop) = 0x03 := rfl
@[simp] theorem cmdByte_repStart : cmdByte (ackActBit .ack) (mcmdBits .repStart) = 0x01 := rfl

/-- Bits 7:1 of a byte whose bit 0 is appended. -/
@[simp] theorem upper7_append (a : BitVec 7) (b : BitVec 1) : upper7 (a ++ b) = a := by
  revert a b
  decide

/-- Bit 0 of such a byte. -/
@[simp] theorem append_bit0 (a : BitVec 7) (b : BitVec 1) : (a ++ b).getLsbD 0 = decide (b = 1) := by
  revert a b
  decide

/-- A byte is its bits 7:1 with its bit 0 appended. -/
theorem upper7_append_bit0 (v : Byte) : upper7 v ++ (if v.getLsbD 0 then (1 : BitVec 1) else 0) = v := by
  revert v
  decide

/-- The address byte of an 8-bit argument is that of its low seven bits (30_encoding.md R88). -/
theorem addrByte_eq (a : Byte) (rw : Dir) : addrByte a rw = addrByteOf7 (a.extractLsb' 0 7) rw := by
  cases rw <;> revert a <;> decide

/-- The byte `EN_SET` writes has ENABLE set. -/
@[simp] theorem enableByte_bit0 (v : Byte) : (enableByte v).getLsbD 0 = true := by
  revert v
  decide

/-- The byte `EN_SET` writes, taken apart and put together. -/
@[simp] theorem enableByte_parts (v : Byte) : upper7 (enableByte v) ++ (1 : BitVec 1) = enableByte v := by
  revert v
  decide

/-- The length test of 00_scope.md R9 under a bound that admits the empty transfer. -/
theorem lengthFits_iff (c : Config) (n : Nat) (h : 0 < c.maxLen) : lengthFits c n = true ↔ n < c.maxLen := by
  simp only [lengthFits, Bool.or_eq_true, beq_iff_eq, decide_eq_true_eq]
  omega

end Sys2Proof.Machine
end

