-- ==== Sys2Proof/Laws/State.lean ====
section
/-! SUPPORT. One lemma per field per update of State, each true by rfl, so that no later proof unfolds a record update. -/

namespace Sys2Proof.Machine

@[simp] theorem afterRead_cfg (s : State) (r : PortReg) : (s.afterRead r).cfg = s.cfg := rfl
@[simp] theorem afterRead_phase (s : State) (r : PortReg) : (s.afterRead r).phase = s.phase := rfl
@[simp] theorem afterRead_op (s : State) (r : PortReg) : (s.afterRead r).op = s.op := rfl
@[simp] theorem afterRead_addr (s : State) (r : PortReg) : (s.afterRead r).addr = s.addr := rfl
@[simp] theorem afterRead_len (s : State) (r : PortReg) : (s.afterRead r).len = s.len := rfl
@[simp] theorem afterRead_data (s : State) (r : PortReg) : (s.afterRead r).data = s.data := rfl
@[simp] theorem afterRead_buf (s : State) (r : PortReg) : (s.afterRead r).buf = s.buf := rfl
@[simp] theorem afterRead_savedEn (s : State) (r : PortReg) : (s.afterRead r).savedEn = s.savedEn := rfl
@[simp] theorem afterRead_snap (s : State) (r : PortReg) : (s.afterRead r).snap = s.snap := rfl
@[simp] theorem afterRead_k (s : State) (r : PortReg) : (s.afterRead r).k = s.k := rfl
@[simp] theorem afterRead_q (s : State) (r : PortReg) : (s.afterRead r).q = s.q := rfl
@[simp] theorem afterRead_result (s : State) (r : PortReg) : (s.afterRead r).result = s.result := rfl
@[simp] theorem afterRead_pos (s : State) (r : PortReg) : (s.afterRead r).pos = s.pos := rfl
@[simp] theorem afterRead_port (s : State) (r : PortReg) : (s.afterRead r).port = s.port := rfl
@[simp] theorem afterRead_requests (s : State) (r : PortReg) : (s.afterRead r).requests = s.requests := rfl
@[simp] theorem afterRead_delivered (s : State) (r : PortReg) : (s.afterRead r).delivered = s.delivered := rfl
@[simp] theorem afterRead_trace (s : State) (r : PortReg) : (s.afterRead r).trace = s.trace ++ [.read r s.answer] := rfl
@[simp] theorem afterRead_answers (s : State) (r : PortReg) : (s.afterRead r).answers = s.answers.tail := rfl
@[simp] theorem afterRead_draws (s : State) (r : PortReg) : (s.afterRead r).draws = s.draws + 1 := rfl
@[simp] theorem afterRead_resets (s : State) (r : PortReg) : (s.afterRead r).resets = s.resets := rfl
@[simp] theorem afterRead_resetIn (s : State) (r : PortReg) : (s.afterRead r).resetIn = s.resetIn := rfl

@[simp] theorem portWrite_cfg (s : State) (r : PortReg) (v : Byte) : (s.portWrite r v).cfg = s.cfg := rfl
@[simp] theorem portWrite_phase (s : State) (r : PortReg) (v : Byte) : (s.portWrite r v).phase = s.phase := rfl
@[simp] theorem portWrite_op (s : State) (r : PortReg) (v : Byte) : (s.portWrite r v).op = s.op := rfl
@[simp] theorem portWrite_addr (s : State) (r : PortReg) (v : Byte) : (s.portWrite r v).addr = s.addr := rfl
@[simp] theorem portWrite_len (s : State) (r : PortReg) (v : Byte) : (s.portWrite r v).len = s.len := rfl
@[simp] theorem portWrite_data (s : State) (r : PortReg) (v : Byte) : (s.portWrite r v).data = s.data := rfl
@[simp] theorem portWrite_buf (s : State) (r : PortReg) (v : Byte) : (s.portWrite r v).buf = s.buf := rfl
@[simp] theorem portWrite_savedEn (s : State) (r : PortReg) (v : Byte) : (s.portWrite r v).savedEn = s.savedEn := rfl
@[simp] theorem portWrite_snap (s : State) (r : PortReg) (v : Byte) : (s.portWrite r v).snap = s.snap := rfl
@[simp] theorem portWrite_k (s : State) (r : PortReg) (v : Byte) : (s.portWrite r v).k = s.k := rfl
@[simp] theorem portWrite_q (s : State) (r : PortReg) (v : Byte) : (s.portWrite r v).q = s.q := rfl
@[simp] theorem portWrite_result (s : State) (r : PortReg) (v : Byte) : (s.portWrite r v).result = s.result := rfl
@[simp] theorem portWrite_pos (s : State) (r : PortReg) (v : Byte) : (s.portWrite r v).pos = s.pos := rfl
@[simp] theorem portWrite_port (s : State) (r : PortReg) (v : Byte) : (s.portWrite r v).port = Memory.write s.port (regAddr s.cfg r) v := rfl
@[simp] theorem portWrite_requests (s : State) (r : PortReg) (v : Byte) : (s.portWrite r v).requests = s.requests := rfl
@[simp] theorem portWrite_delivered (s : State) (r : PortReg) (v : Byte) : (s.portWrite r v).delivered = s.delivered := rfl
@[simp] theorem portWrite_trace (s : State) (r : PortReg) (v : Byte) : (s.portWrite r v).trace = s.trace ++ [.write r v] := rfl
@[simp] theorem portWrite_answers (s : State) (r : PortReg) (v : Byte) : (s.portWrite r v).answers = s.answers := rfl
@[simp] theorem portWrite_draws (s : State) (r : PortReg) (v : Byte) : (s.portWrite r v).draws = s.draws := rfl
@[simp] theorem portWrite_resets (s : State) (r : PortReg) (v : Byte) : (s.portWrite r v).resets = s.resets := rfl
@[simp] theorem portWrite_resetIn (s : State) (r : PortReg) (v : Byte) : (s.portWrite r v).resetIn = s.resetIn := rfl

@[simp] theorem snapStatus_cfg (s : State) : (s.snapStatus).cfg = s.cfg := rfl
@[simp] theorem snapStatus_phase (s : State) : (s.snapStatus).phase = s.phase := rfl
@[simp] theorem snapStatus_op (s : State) : (s.snapStatus).op = s.op := rfl
@[simp] theorem snapStatus_addr (s : State) : (s.snapStatus).addr = s.addr := rfl
@[simp] theorem snapStatus_len (s : State) : (s.snapStatus).len = s.len := rfl
@[simp] theorem snapStatus_data (s : State) : (s.snapStatus).data = s.data := rfl
@[simp] theorem snapStatus_buf (s : State) : (s.snapStatus).buf = s.buf := rfl
@[simp] theorem snapStatus_savedEn (s : State) : (s.snapStatus).savedEn = s.savedEn := rfl
@[simp] theorem snapStatus_snap (s : State) : (s.snapStatus).snap = s.answer := rfl
@[simp] theorem snapStatus_k (s : State) : (s.snapStatus).k = s.k := rfl
@[simp] theorem snapStatus_q (s : State) : (s.snapStatus).q = s.q := rfl
@[simp] theorem snapStatus_result (s : State) : (s.snapStatus).result = s.result := rfl
@[simp] theorem snapStatus_pos (s : State) : (s.snapStatus).pos = s.pos := rfl
@[simp] theorem snapStatus_port (s : State) : (s.snapStatus).port = s.port := rfl
@[simp] theorem snapStatus_requests (s : State) : (s.snapStatus).requests = s.requests := rfl
@[simp] theorem snapStatus_delivered (s : State) : (s.snapStatus).delivered = s.delivered := rfl
@[simp] theorem snapStatus_trace (s : State) : (s.snapStatus).trace = s.trace ++ [.read .status s.answer] := rfl
@[simp] theorem snapStatus_answers (s : State) : (s.snapStatus).answers = s.answers.tail := rfl
@[simp] theorem snapStatus_draws (s : State) : (s.snapStatus).draws = s.draws + 1 := rfl
@[simp] theorem snapStatus_resets (s : State) : (s.snapStatus).resets = s.resets := rfl
@[simp] theorem snapStatus_resetIn (s : State) : (s.snapStatus).resetIn = s.resetIn := rfl

@[simp] theorem goto_cfg (s : State) (p : Pos) : (s.goto p).cfg = s.cfg := rfl
@[simp] theorem goto_phase (s : State) (p : Pos) : (s.goto p).phase = s.phase := rfl
@[simp] theorem goto_op (s : State) (p : Pos) : (s.goto p).op = s.op := rfl
@[simp] theorem goto_addr (s : State) (p : Pos) : (s.goto p).addr = s.addr := rfl
@[simp] theorem goto_len (s : State) (p : Pos) : (s.goto p).len = s.len := rfl
@[simp] theorem goto_data (s : State) (p : Pos) : (s.goto p).data = s.data := rfl
@[simp] theorem goto_buf (s : State) (p : Pos) : (s.goto p).buf = s.buf := rfl
@[simp] theorem goto_savedEn (s : State) (p : Pos) : (s.goto p).savedEn = s.savedEn := rfl
@[simp] theorem goto_snap (s : State) (p : Pos) : (s.goto p).snap = s.snap := rfl
@[simp] theorem goto_k (s : State) (p : Pos) : (s.goto p).k = s.k := rfl
@[simp] theorem goto_q (s : State) (p : Pos) : (s.goto p).q = s.q := rfl
@[simp] theorem goto_result (s : State) (p : Pos) : (s.goto p).result = s.result := rfl
@[simp] theorem goto_pos (s : State) (p : Pos) : (s.goto p).pos = p := rfl
@[simp] theorem goto_port (s : State) (p : Pos) : (s.goto p).port = s.port := rfl
@[simp] theorem goto_requests (s : State) (p : Pos) : (s.goto p).requests = s.requests := rfl
@[simp] theorem goto_delivered (s : State) (p : Pos) : (s.goto p).delivered = s.delivered := rfl
@[simp] theorem goto_trace (s : State) (p : Pos) : (s.goto p).trace = s.trace := rfl
@[simp] theorem goto_answers (s : State) (p : Pos) : (s.goto p).answers = s.answers := rfl
@[simp] theorem goto_draws (s : State) (p : Pos) : (s.goto p).draws = s.draws := rfl
@[simp] theorem goto_resets (s : State) (p : Pos) : (s.goto p).resets = s.resets := rfl
@[simp] theorem goto_resetIn (s : State) (p : Pos) : (s.goto p).resetIn = s.resetIn := rfl

@[simp] theorem takeRequest_cfg (s : State) : (s.takeRequest).cfg = s.cfg := rfl
@[simp] theorem takeRequest_phase (s : State) : (s.takeRequest).phase = s.phase := rfl
@[simp] theorem takeRequest_op (s : State) : (s.takeRequest).op = s.op := rfl
@[simp] theorem takeRequest_addr (s : State) : (s.takeRequest).addr = s.addr := rfl
@[simp] theorem takeRequest_len (s : State) : (s.takeRequest).len = s.len := rfl
@[simp] theorem takeRequest_data (s : State) : (s.takeRequest).data = s.data := rfl
@[simp] theorem takeRequest_buf (s : State) : (s.takeRequest).buf = s.buf := rfl
@[simp] theorem takeRequest_savedEn (s : State) : (s.takeRequest).savedEn = s.savedEn := rfl
@[simp] theorem takeRequest_snap (s : State) : (s.takeRequest).snap = s.snap := rfl
@[simp] theorem takeRequest_k (s : State) : (s.takeRequest).k = s.k := rfl
@[simp] theorem takeRequest_q (s : State) : (s.takeRequest).q = s.q := rfl
@[simp] theorem takeRequest_result (s : State) : (s.takeRequest).result = s.result := rfl
@[simp] theorem takeRequest_pos (s : State) : (s.takeRequest).pos = s.pos := rfl
@[simp] theorem takeRequest_port (s : State) : (s.takeRequest).port = s.port := rfl
@[simp] theorem takeRequest_requests (s : State) : (s.takeRequest).requests = s.requests.tail := rfl
@[simp] theorem takeRequest_delivered (s : State) : (s.takeRequest).delivered = s.delivered := rfl
@[simp] theorem takeRequest_trace (s : State) : (s.takeRequest).trace = s.trace := rfl
@[simp] theorem takeRequest_answers (s : State) : (s.takeRequest).answers = s.answers := rfl
@[simp] theorem takeRequest_draws (s : State) : (s.takeRequest).draws = s.draws := rfl
@[simp] theorem takeRequest_resets (s : State) : (s.takeRequest).resets = s.resets := rfl
@[simp] theorem takeRequest_resetIn (s : State) : (s.takeRequest).resetIn = s.resetIn := rfl

@[simp] theorem acceptConfigure_cfg (s : State) : (s.acceptConfigure).cfg = s.cfg := rfl
@[simp] theorem acceptConfigure_phase (s : State) : (s.acceptConfigure).phase = s.phase := rfl
@[simp] theorem acceptConfigure_op (s : State) : (s.acceptConfigure).op = .configure := rfl
@[simp] theorem acceptConfigure_addr (s : State) : (s.acceptConfigure).addr = s.addr := rfl
@[simp] theorem acceptConfigure_len (s : State) : (s.acceptConfigure).len = s.len := rfl
@[simp] theorem acceptConfigure_data (s : State) : (s.acceptConfigure).data = s.data := rfl
@[simp] theorem acceptConfigure_buf (s : State) : (s.acceptConfigure).buf = s.buf := rfl
@[simp] theorem acceptConfigure_savedEn (s : State) : (s.acceptConfigure).savedEn = s.savedEn := rfl
@[simp] theorem acceptConfigure_snap (s : State) : (s.acceptConfigure).snap = s.snap := rfl
@[simp] theorem acceptConfigure_k (s : State) : (s.acceptConfigure).k = s.k := rfl
@[simp] theorem acceptConfigure_q (s : State) : (s.acceptConfigure).q = s.q := rfl
@[simp] theorem acceptConfigure_result (s : State) : (s.acceptConfigure).result = s.result := rfl
@[simp] theorem acceptConfigure_pos (s : State) : (s.acceptConfigure).pos = .hold := rfl
@[simp] theorem acceptConfigure_port (s : State) : (s.acceptConfigure).port = s.port := rfl
@[simp] theorem acceptConfigure_requests (s : State) : (s.acceptConfigure).requests = s.requests.tail := rfl
@[simp] theorem acceptConfigure_delivered (s : State) : (s.acceptConfigure).delivered = s.delivered := rfl
@[simp] theorem acceptConfigure_trace (s : State) : (s.acceptConfigure).trace = s.trace := rfl
@[simp] theorem acceptConfigure_answers (s : State) : (s.acceptConfigure).answers = s.answers := rfl
@[simp] theorem acceptConfigure_draws (s : State) : (s.acceptConfigure).draws = s.draws := rfl
@[simp] theorem acceptConfigure_resets (s : State) : (s.acceptConfigure).resets = s.resets := rfl
@[simp] theorem acceptConfigure_resetIn (s : State) : (s.acceptConfigure).resetIn = s.resetIn := rfl

@[simp] theorem acceptWrite_cfg (s : State) (a : Byte) (d : List Byte) : (s.acceptWrite a d).cfg = s.cfg := rfl
@[simp] theorem acceptWrite_phase (s : State) (a : Byte) (d : List Byte) : (s.acceptWrite a d).phase = s.phase := rfl
@[simp] theorem acceptWrite_op (s : State) (a : Byte) (d : List Byte) : (s.acceptWrite a d).op = .write := rfl
@[simp] theorem acceptWrite_addr (s : State) (a : Byte) (d : List Byte) : (s.acceptWrite a d).addr = a := rfl
@[simp] theorem acceptWrite_len (s : State) (a : Byte) (d : List Byte) : (s.acceptWrite a d).len = d.length := rfl
@[simp] theorem acceptWrite_data (s : State) (a : Byte) (d : List Byte) : (s.acceptWrite a d).data = d := rfl
@[simp] theorem acceptWrite_buf (s : State) (a : Byte) (d : List Byte) : (s.acceptWrite a d).buf = s.buf := rfl
@[simp] theorem acceptWrite_savedEn (s : State) (a : Byte) (d : List Byte) : (s.acceptWrite a d).savedEn = s.savedEn := rfl
@[simp] theorem acceptWrite_snap (s : State) (a : Byte) (d : List Byte) : (s.acceptWrite a d).snap = s.snap := rfl
@[simp] theorem acceptWrite_k (s : State) (a : Byte) (d : List Byte) : (s.acceptWrite a d).k = s.k := rfl
@[simp] theorem acceptWrite_q (s : State) (a : Byte) (d : List Byte) : (s.acceptWrite a d).q = s.q := rfl
@[simp] theorem acceptWrite_result (s : State) (a : Byte) (d : List Byte) : (s.acceptWrite a d).result = s.result := rfl
@[simp] theorem acceptWrite_pos (s : State) (a : Byte) (d : List Byte) : (s.acceptWrite a d).pos = .enSave := rfl
@[simp] theorem acceptWrite_port (s : State) (a : Byte) (d : List Byte) : (s.acceptWrite a d).port = s.port := rfl
@[simp] theorem acceptWrite_requests (s : State) (a : Byte) (d : List Byte) : (s.acceptWrite a d).requests = s.requests.tail := rfl
@[simp] theorem acceptWrite_delivered (s : State) (a : Byte) (d : List Byte) : (s.acceptWrite a d).delivered = s.delivered := rfl
@[simp] theorem acceptWrite_trace (s : State) (a : Byte) (d : List Byte) : (s.acceptWrite a d).trace = s.trace := rfl
@[simp] theorem acceptWrite_answers (s : State) (a : Byte) (d : List Byte) : (s.acceptWrite a d).answers = s.answers := rfl
@[simp] theorem acceptWrite_draws (s : State) (a : Byte) (d : List Byte) : (s.acceptWrite a d).draws = s.draws := rfl
@[simp] theorem acceptWrite_resets (s : State) (a : Byte) (d : List Byte) : (s.acceptWrite a d).resets = s.resets := rfl
@[simp] theorem acceptWrite_resetIn (s : State) (a : Byte) (d : List Byte) : (s.acceptWrite a d).resetIn = s.resetIn := rfl

@[simp] theorem acceptRead_cfg (s : State) (a : Byte) (b : List Byte) : (s.acceptRead a b).cfg = s.cfg := rfl
@[simp] theorem acceptRead_phase (s : State) (a : Byte) (b : List Byte) : (s.acceptRead a b).phase = s.phase := rfl
@[simp] theorem acceptRead_op (s : State) (a : Byte) (b : List Byte) : (s.acceptRead a b).op = .read := rfl
@[simp] theorem acceptRead_addr (s : State) (a : Byte) (b : List Byte) : (s.acceptRead a b).addr = a := rfl
@[simp] theorem acceptRead_len (s : State) (a : Byte) (b : List Byte) : (s.acceptRead a b).len = b.length := rfl
@[simp] theorem acceptRead_data (s : State) (a : Byte) (b : List Byte) : (s.acceptRead a b).data = s.data := rfl
@[simp] theorem acceptRead_buf (s : State) (a : Byte) (b : List Byte) : (s.acceptRead a b).buf = b := rfl
@[simp] theorem acceptRead_savedEn (s : State) (a : Byte) (b : List Byte) : (s.acceptRead a b).savedEn = s.savedEn := rfl
@[simp] theorem acceptRead_snap (s : State) (a : Byte) (b : List Byte) : (s.acceptRead a b).snap = s.snap := rfl
@[simp] theorem acceptRead_k (s : State) (a : Byte) (b : List Byte) : (s.acceptRead a b).k = s.k := rfl
@[simp] theorem acceptRead_q (s : State) (a : Byte) (b : List Byte) : (s.acceptRead a b).q = s.q := rfl
@[simp] theorem acceptRead_result (s : State) (a : Byte) (b : List Byte) : (s.acceptRead a b).result = s.result := rfl
@[simp] theorem acceptRead_pos (s : State) (a : Byte) (b : List Byte) : (s.acceptRead a b).pos = .enSave := rfl
@[simp] theorem acceptRead_port (s : State) (a : Byte) (b : List Byte) : (s.acceptRead a b).port = s.port := rfl
@[simp] theorem acceptRead_requests (s : State) (a : Byte) (b : List Byte) : (s.acceptRead a b).requests = s.requests.tail := rfl
@[simp] theorem acceptRead_delivered (s : State) (a : Byte) (b : List Byte) : (s.acceptRead a b).delivered = s.delivered := rfl
@[simp] theorem acceptRead_trace (s : State) (a : Byte) (b : List Byte) : (s.acceptRead a b).trace = s.trace := rfl
@[simp] theorem acceptRead_answers (s : State) (a : Byte) (b : List Byte) : (s.acceptRead a b).answers = s.answers := rfl
@[simp] theorem acceptRead_draws (s : State) (a : Byte) (b : List Byte) : (s.acceptRead a b).draws = s.draws := rfl
@[simp] theorem acceptRead_resets (s : State) (a : Byte) (b : List Byte) : (s.acceptRead a b).resets = s.resets := rfl
@[simp] theorem acceptRead_resetIn (s : State) (a : Byte) (b : List Byte) : (s.acceptRead a b).resetIn = s.resetIn := rfl

@[simp] theorem enSave_cfg (s : State) : (s.enSave).cfg = s.cfg := rfl
@[simp] theorem enSave_phase (s : State) : (s.enSave).phase = .busAcquire := rfl
@[simp] theorem enSave_op (s : State) : (s.enSave).op = s.op := rfl
@[simp] theorem enSave_addr (s : State) : (s.enSave).addr = s.addr := rfl
@[simp] theorem enSave_len (s : State) : (s.enSave).len = s.len := rfl
@[simp] theorem enSave_data (s : State) : (s.enSave).data = s.data := rfl
@[simp] theorem enSave_buf (s : State) : (s.enSave).buf = s.buf := rfl
@[simp] theorem enSave_savedEn (s : State) : (s.enSave).savedEn = s.answer := rfl
@[simp] theorem enSave_snap (s : State) : (s.enSave).snap = s.snap := rfl
@[simp] theorem enSave_k (s : State) : (s.enSave).k = s.k := rfl
@[simp] theorem enSave_q (s : State) : (s.enSave).q = s.q := rfl
@[simp] theorem enSave_result (s : State) : (s.enSave).result = s.result := rfl
@[simp] theorem enSave_pos (s : State) : (s.enSave).pos = .enSet := rfl
@[simp] theorem enSave_port (s : State) : (s.enSave).port = s.port := rfl
@[simp] theorem enSave_requests (s : State) : (s.enSave).requests = s.requests := rfl
@[simp] theorem enSave_delivered (s : State) : (s.enSave).delivered = s.delivered := rfl
@[simp] theorem enSave_trace (s : State) : (s.enSave).trace = s.trace ++ [.read .ctrla s.answer] := rfl
@[simp] theorem enSave_answers (s : State) : (s.enSave).answers = s.answers.tail := rfl
@[simp] theorem enSave_draws (s : State) : (s.enSave).draws = s.draws + 1 := rfl
@[simp] theorem enSave_resets (s : State) : (s.enSave).resets = s.resets := rfl
@[simp] theorem enSave_resetIn (s : State) : (s.enSave).resetIn = s.resetIn := rfl

@[simp] theorem captureData_cfg (s : State) : (s.captureData).cfg = s.cfg := rfl
@[simp] theorem captureData_phase (s : State) : (s.captureData).phase = s.phase := rfl
@[simp] theorem captureData_op (s : State) : (s.captureData).op = s.op := rfl
@[simp] theorem captureData_addr (s : State) : (s.captureData).addr = s.addr := rfl
@[simp] theorem captureData_len (s : State) : (s.captureData).len = s.len := rfl
@[simp] theorem captureData_data (s : State) : (s.captureData).data = s.data := rfl
@[simp] theorem captureData_buf (s : State) : (s.captureData).buf = s.buf.set s.k s.answer := rfl
@[simp] theorem captureData_savedEn (s : State) : (s.captureData).savedEn = s.savedEn := rfl
@[simp] theorem captureData_snap (s : State) : (s.captureData).snap = s.snap := rfl
@[simp] theorem captureData_k (s : State) : (s.captureData).k = s.k := rfl
@[simp] theorem captureData_q (s : State) : (s.captureData).q = s.q := rfl
@[simp] theorem captureData_result (s : State) : (s.captureData).result = s.result := rfl
@[simp] theorem captureData_pos (s : State) : (s.captureData).pos = .respond := rfl
@[simp] theorem captureData_port (s : State) : (s.captureData).port = s.port := rfl
@[simp] theorem captureData_requests (s : State) : (s.captureData).requests = s.requests := rfl
@[simp] theorem captureData_delivered (s : State) : (s.captureData).delivered = s.delivered := rfl
@[simp] theorem captureData_trace (s : State) : (s.captureData).trace = s.trace ++ [.read .data s.answer] := rfl
@[simp] theorem captureData_answers (s : State) : (s.captureData).answers = s.answers.tail := rfl
@[simp] theorem captureData_draws (s : State) : (s.captureData).draws = s.draws + 1 := rfl
@[simp] theorem captureData_resets (s : State) : (s.captureData).resets = s.resets := rfl
@[simp] theorem captureData_resetIn (s : State) : (s.captureData).resetIn = s.resetIn := rfl

@[simp] theorem finish_cfg (s : State) (r : TxResult) : (s.finish r).cfg = s.cfg := rfl
@[simp] theorem finish_phase (s : State) (r : TxResult) : (s.finish r).phase = .idle := rfl
@[simp] theorem finish_op (s : State) (r : TxResult) : (s.finish r).op = .none := rfl
@[simp] theorem finish_addr (s : State) (r : TxResult) : (s.finish r).addr = s.addr := rfl
@[simp] theorem finish_len (s : State) (r : TxResult) : (s.finish r).len = s.len := rfl
@[simp] theorem finish_data (s : State) (r : TxResult) : (s.finish r).data = s.data := rfl
@[simp] theorem finish_buf (s : State) (r : TxResult) : (s.finish r).buf = s.buf := rfl
@[simp] theorem finish_savedEn (s : State) (r : TxResult) : (s.finish r).savedEn = s.savedEn := rfl
@[simp] theorem finish_snap (s : State) (r : TxResult) : (s.finish r).snap = s.snap := rfl
@[simp] theorem finish_k (s : State) (r : TxResult) : (s.finish r).k = s.k := rfl
@[simp] theorem finish_q (s : State) (r : TxResult) : (s.finish r).q = s.q := rfl
@[simp] theorem finish_result (s : State) (r : TxResult) : (s.finish r).result = r := rfl
@[simp] theorem finish_pos (s : State) (r : TxResult) : (s.finish r).pos = .idle := rfl
@[simp] theorem finish_port (s : State) (r : TxResult) : (s.finish r).port = s.port := rfl
@[simp] theorem finish_requests (s : State) (r : TxResult) : (s.finish r).requests = s.requests := rfl
@[simp] theorem finish_delivered (s : State) (r : TxResult) : (s.finish r).delivered = s.delivered ++ [s.delivery r] := rfl
@[simp] theorem finish_trace (s : State) (r : TxResult) : (s.finish r).trace = s.trace := rfl
@[simp] theorem finish_answers (s : State) (r : TxResult) : (s.finish r).answers = s.answers := rfl
@[simp] theorem finish_draws (s : State) (r : TxResult) : (s.finish r).draws = s.draws := rfl
@[simp] theorem finish_resets (s : State) (r : TxResult) : (s.finish r).resets = s.resets := rfl
@[simp] theorem finish_resetIn (s : State) (r : TxResult) : (s.finish r).resetIn = s.resetIn := rfl

@[simp] theorem raise_cfg (s : State) (e : TxError) : (s.raise e).cfg = s.cfg := rfl
@[simp] theorem raise_phase (s : State) (e : TxError) : (s.raise e).phase = .error := rfl
@[simp] theorem raise_op (s : State) (e : TxError) : (s.raise e).op = s.op := rfl
@[simp] theorem raise_addr (s : State) (e : TxError) : (s.raise e).addr = s.addr := rfl
@[simp] theorem raise_len (s : State) (e : TxError) : (s.raise e).len = s.len := rfl
@[simp] theorem raise_data (s : State) (e : TxError) : (s.raise e).data = s.data := rfl
@[simp] theorem raise_buf (s : State) (e : TxError) : (s.raise e).buf = s.buf := rfl
@[simp] theorem raise_savedEn (s : State) (e : TxError) : (s.raise e).savedEn = s.savedEn := rfl
@[simp] theorem raise_snap (s : State) (e : TxError) : (s.raise e).snap = s.snap := rfl
@[simp] theorem raise_k (s : State) (e : TxError) : (s.raise e).k = s.k := rfl
@[simp] theorem raise_q (s : State) (e : TxError) : (s.raise e).q = s.q := rfl
@[simp] theorem raise_result (s : State) (e : TxError) : (s.raise e).result = s.result := rfl
@[simp] theorem raise_pos (s : State) (e : TxError) : (s.raise e).pos = .enRestore (.err e) := rfl
@[simp] theorem raise_port (s : State) (e : TxError) : (s.raise e).port = s.port := rfl
@[simp] theorem raise_requests (s : State) (e : TxError) : (s.raise e).requests = s.requests := rfl
@[simp] theorem raise_delivered (s : State) (e : TxError) : (s.raise e).delivered = s.delivered := rfl
@[simp] theorem raise_trace (s : State) (e : TxError) : (s.raise e).trace = s.trace := rfl
@[simp] theorem raise_answers (s : State) (e : TxError) : (s.raise e).answers = s.answers := rfl
@[simp] theorem raise_draws (s : State) (e : TxError) : (s.raise e).draws = s.draws := rfl
@[simp] theorem raise_resets (s : State) (e : TxError) : (s.raise e).resets = s.resets := rfl
@[simp] theorem raise_resetIn (s : State) (e : TxError) : (s.raise e).resetIn = s.resetIn := rfl

@[simp] theorem enterAddress_cfg (s : State) : (s.enterAddress).cfg = s.cfg := rfl
@[simp] theorem enterAddress_phase (s : State) : (s.enterAddress).phase = .address := rfl
@[simp] theorem enterAddress_op (s : State) : (s.enterAddress).op = s.op := rfl
@[simp] theorem enterAddress_addr (s : State) : (s.enterAddress).addr = s.addr := rfl
@[simp] theorem enterAddress_len (s : State) : (s.enterAddress).len = s.len := rfl
@[simp] theorem enterAddress_data (s : State) : (s.enterAddress).data = s.data := rfl
@[simp] theorem enterAddress_buf (s : State) : (s.enterAddress).buf = s.buf := rfl
@[simp] theorem enterAddress_savedEn (s : State) : (s.enterAddress).savedEn = s.savedEn := rfl
@[simp] theorem enterAddress_snap (s : State) : (s.enterAddress).snap = s.snap := rfl
@[simp] theorem enterAddress_k (s : State) : (s.enterAddress).k = s.k := rfl
@[simp] theorem enterAddress_q (s : State) : (s.enterAddress).q = s.q := rfl
@[simp] theorem enterAddress_result (s : State) : (s.enterAddress).result = s.result := rfl
@[simp] theorem enterAddress_pos (s : State) : (s.enterAddress).pos = .sendAddr := rfl
@[simp] theorem enterAddress_port (s : State) : (s.enterAddress).port = s.port := rfl
@[simp] theorem enterAddress_requests (s : State) : (s.enterAddress).requests = s.requests := rfl
@[simp] theorem enterAddress_delivered (s : State) : (s.enterAddress).delivered = s.delivered := rfl
@[simp] theorem enterAddress_trace (s : State) : (s.enterAddress).trace = s.trace := rfl
@[simp] theorem enterAddress_answers (s : State) : (s.enterAddress).answers = s.answers := rfl
@[simp] theorem enterAddress_draws (s : State) : (s.enterAddress).draws = s.draws := rfl
@[simp] theorem enterAddress_resets (s : State) : (s.enterAddress).resets = s.resets := rfl
@[simp] theorem enterAddress_resetIn (s : State) : (s.enterAddress).resetIn = s.resetIn := rfl

@[simp] theorem enterStop_cfg (s : State) : (s.enterStop).cfg = s.cfg := rfl
@[simp] theorem enterStop_phase (s : State) : (s.enterStop).phase = .stop := rfl
@[simp] theorem enterStop_op (s : State) : (s.enterStop).op = s.op := rfl
@[simp] theorem enterStop_addr (s : State) : (s.enterStop).addr = s.addr := rfl
@[simp] theorem enterStop_len (s : State) : (s.enterStop).len = s.len := rfl
@[simp] theorem enterStop_data (s : State) : (s.enterStop).data = s.data := rfl
@[simp] theorem enterStop_buf (s : State) : (s.enterStop).buf = s.buf := rfl
@[simp] theorem enterStop_savedEn (s : State) : (s.enterStop).savedEn = s.savedEn := rfl
@[simp] theorem enterStop_snap (s : State) : (s.enterStop).snap = s.snap := rfl
@[simp] theorem enterStop_k (s : State) : (s.enterStop).k = s.k := rfl
@[simp] theorem enterStop_q (s : State) : (s.enterStop).q = s.q := rfl
@[simp] theorem enterStop_result (s : State) : (s.enterStop).result = s.result := rfl
@[simp] theorem enterStop_pos (s : State) : (s.enterStop).pos = .issueStop := rfl
@[simp] theorem enterStop_port (s : State) : (s.enterStop).port = s.port := rfl
@[simp] theorem enterStop_requests (s : State) : (s.enterStop).requests = s.requests := rfl
@[simp] theorem enterStop_delivered (s : State) : (s.enterStop).delivered = s.delivered := rfl
@[simp] theorem enterStop_trace (s : State) : (s.enterStop).trace = s.trace := rfl
@[simp] theorem enterStop_answers (s : State) : (s.enterStop).answers = s.answers := rfl
@[simp] theorem enterStop_draws (s : State) : (s.enterStop).draws = s.draws := rfl
@[simp] theorem enterStop_resets (s : State) : (s.enterStop).resets = s.resets := rfl
@[simp] theorem enterStop_resetIn (s : State) : (s.enterStop).resetIn = s.resetIn := rfl

@[simp] theorem applyReset_cfg (s : State) : (s.applyReset).cfg = s.cfg := rfl
@[simp] theorem applyReset_phase (s : State) : (s.applyReset).phase = .idle := rfl
@[simp] theorem applyReset_op (s : State) : (s.applyReset).op = .none := rfl
@[simp] theorem applyReset_addr (s : State) : (s.applyReset).addr = 0 := rfl
@[simp] theorem applyReset_len (s : State) : (s.applyReset).len = 0 := rfl
@[simp] theorem applyReset_data (s : State) : (s.applyReset).data = [] := rfl
@[simp] theorem applyReset_buf (s : State) : (s.applyReset).buf = [] := rfl
@[simp] theorem applyReset_savedEn (s : State) : (s.applyReset).savedEn = 0 := rfl
@[simp] theorem applyReset_snap (s : State) : (s.applyReset).snap = 0 := rfl
@[simp] theorem applyReset_k (s : State) : (s.applyReset).k = 0 := rfl
@[simp] theorem applyReset_q (s : State) : (s.applyReset).q = 0 := rfl
@[simp] theorem applyReset_result (s : State) : (s.applyReset).result = .ok := rfl
@[simp] theorem applyReset_pos (s : State) : (s.applyReset).pos = .idle := rfl
@[simp] theorem applyReset_port (s : State) : (s.applyReset).port = Memory.afterReset s.cfg (s.resets + 1) := rfl
@[simp] theorem applyReset_requests (s : State) : (s.applyReset).requests = s.requests := rfl
@[simp] theorem applyReset_delivered (s : State) : (s.applyReset).delivered = s.delivered := rfl
@[simp] theorem applyReset_trace (s : State) : (s.applyReset).trace = s.trace := rfl
@[simp] theorem applyReset_answers (s : State) : (s.applyReset).answers = s.answers := rfl
@[simp] theorem applyReset_draws (s : State) : (s.applyReset).draws = s.draws := rfl
@[simp] theorem applyReset_resets (s : State) : (s.applyReset).resets = s.resets + 1 := rfl
@[simp] theorem applyReset_resetIn (s : State) : (s.applyReset).resetIn = false := rfl

@[simp] theorem answer_cons (s : State) (b : Byte) (l : List Byte) (h : s.answers = b :: l) : s.answer = b := by
  simp [State.answer, h]

/-- The answer depends on the environment's fields alone. -/
theorem answer_congr (s t : State) (ha : s.answers = t.answers) (hd : s.draws = t.draws) : s.answer = t.answer := by
  simp [State.answer, ha, hd]

end Sys2Proof.Machine
end

