-- ==== Sys2Proof/Laws/Ops.lean ====
section
/-! SUPPORT. For each shared operation, one lemma that says all it can do. -/

namespace Sys2Proof.Machine

/-- The handover of an access to what follows it. -/
theorem returnTo_cases (s : State) (p : Pos) (next : State → State) :
    (s.pos = p ∧ s.returnTo p next = next s) ∨ (s.pos ≠ p ∧ s.returnTo p next = s) := by
  by_cases h : s.pos = p <;> simp [State.returnTo, h]

@[simp] theorem returnTo_at (s : State) (p : Pos) (next : State → State) (h : s.pos = p) : s.returnTo p next = next s := by
  simp [State.returnTo, h]

/-- A branch on an output of the decoder. -/
theorem onOutput_cases (s : State) (shown : Bool) (p : Pos) (taken : State → State) :
    (shown = true ∧ s.pos = p ∧ s.onOutput shown p taken = taken s) ∨
      ((shown = false ∨ s.pos ≠ p) ∧ s.onOutput shown p taken = s) := by
  unfold State.onOutput
  split
  · rename_i h
    exact .inl ⟨h.1, h.2, rfl⟩
  · rename_i h
    refine .inr ⟨?_, rfl⟩
    cases shown <;> simp_all

/-- What follows the address byte. -/
theorem afterSendAddr_cases (s : State) :
    (s.op = .read ∧ s.len = 0 ∧ s.afterSendAddr = s.enterStop) ∨
    (s.op = .read ∧ s.len ≠ 0 ∧ s.afterSendAddr = { s with phase := .read, k := 0, pos := .pollRead }) ∨
    (s.op ≠ .read ∧ s.afterSendAddr = s.goto .waitWif) := by
  unfold State.afterSendAddr
  by_cases h : s.op = .read <;> by_cases h' : s.len = 0 <;> simp [h, h']

/-- What follows a byte of a write classified PROCEED. -/
theorem proceed_cases (s : State) :
    (s.phase = .address ∧ s.len = 0 ∧ s.proceed = s.goto (.enRestore .ok)) ∨
    (s.phase = .address ∧ s.len ≠ 0 ∧ s.proceed = { s with phase := .write, k := 0, pos := .putByte }) ∨
    (s.phase ≠ .address ∧ s.k + 1 < s.len ∧ s.proceed = { s with k := s.k + 1, pos := .putByte }) ∨
    (s.phase ≠ .address ∧ ¬ s.k + 1 < s.len ∧ s.proceed = s.enterStop) := by
  unfold State.proceed
  by_cases h : s.phase = .address <;> by_cases h' : s.len = 0 <;> by_cases h'' : s.k + 1 < s.len <;> simp [h, h', h'']

/-- The error of a byte of a write classified NACK. -/
theorem nackError_cases (s : State) :
    (s.phase ≠ .address ∧ s.k + 1 < s.len ∧ s.nackError = .partialTransmit s.k) ∨
    ((s.phase = .address ∨ ¬ s.k + 1 < s.len) ∧ s.nackError = .nack) := by
  unfold State.nackError
  by_cases h : s.phase = .address <;> by_cases h' : s.k + 1 < s.len <;> simp [h, h']

/-- What follows `RECV_NEXT`. -/
theorem afterRecvNext_cases (s : State) :
    (s.k + 1 < s.len ∧ s.afterRecvNext = { s with k := s.k + 1, pos := .pollRead }) ∨
    (¬ s.k + 1 < s.len ∧ s.afterRecvNext = s.enterStop) := by
  by_cases h : s.k + 1 < s.len <;> simp [State.afterRecvNext, h]

/-- The quiescence loop's test. -/
theorem quiesceOrExit_cases (s : State) :
    (s.q < s.cfg.quiesceReads ∧ s.quiesceOrExit = s.goto .quiesce) ∨
    (¬ s.q < s.cfg.quiesceReads ∧ s.quiesceOrExit = s.goto (.enRestore .ok)) := by
  by_cases h : s.q < s.cfg.quiesceReads <;> simp [State.quiesceOrExit, h]

/-- What follows STOP. -/
theorem afterStop_cases (s : State) :
    (s.op = .read ∧ s.afterStop = { s with q := 0 }.quiesceOrExit) ∨ (s.op ≠ .read ∧ s.afterStop = s.goto .arbCheck) := by
  by_cases h : s.op = .read <;> simp [State.afterStop, h]

/-- What follows `EN_RESTORE`. -/
theorem afterRestore_cases (s : State) :
    (∃ r, s.pos = .enRestore r ∧ s.afterRestore = s.goto (.complete r)) ∨
      ((∀ r, s.pos ≠ .enRestore r) ∧ s.afterRestore = s) := by
  unfold State.afterRestore
  split
  · rename_i r h
    exact .inl ⟨r, h, rfl⟩
  · rename_i h
    exact .inr ⟨fun r hr => h r hr, rfl⟩

@[simp] theorem goto_goto (s : State) (p p' : Pos) : (s.goto p).goto p' = s.goto p' := rfl
@[simp] theorem goto_raise (s : State) (p : Pos) (e : TxError) : (s.goto p).raise e = s.raise e := rfl
@[simp] theorem goto_nackError (s : State) (p : Pos) : (s.goto p).nackError = s.nackError := rfl
@[simp] theorem goto_enterStop (s : State) (p : Pos) : (s.goto p).enterStop = s.enterStop := rfl

/-- Where the operation goes after PROCEED does not depend on the test position it comes from. -/
@[simp] theorem goto_proceed (s : State) (p : Pos) : (s.goto p).proceed = s.proceed := by
  unfold State.proceed
  by_cases h : s.phase = .address <;> by_cases h' : s.len = 0 <;> by_cases h'' : s.k + 1 < s.len <;>
    simp [h, h', h'', State.goto, State.enterStop]

/-- A state is where it is. -/
theorem goto_self (s : State) (p : Pos) (h : s.pos = p) : s.goto p = s := by
  subst h
  rfl

/-! ### Which positions test an output -/

@[simp] theorem query_idle : Pos.query .idle = none := rfl
@[simp] theorem query_hold : Pos.query .hold = none := rfl
@[simp] theorem query_baud : Pos.query .baud = none := rfl
@[simp] theorem query_forceIdle : Pos.query .forceIdle = none := rfl
@[simp] theorem query_enSave : Pos.query .enSave = none := rfl
@[simp] theorem query_enSet : Pos.query .enSet = none := rfl
@[simp] theorem query_waitIdle : Pos.query .waitIdle = none := rfl
@[simp] theorem query_sendAddr : Pos.query .sendAddr = none := rfl
@[simp] theorem query_waitWif : Pos.query .waitWif = none := rfl
@[simp] theorem query_putByte : Pos.query .putByte = none := rfl
@[simp] theorem query_issueStop : Pos.query .issueStop = none := rfl
@[simp] theorem query_arbCheck : Pos.query .arbCheck = none := rfl
@[simp] theorem query_pollRead : Pos.query .pollRead = none := rfl
@[simp] theorem query_readData : Pos.query .readData = none := rfl
@[simp] theorem query_respond : Pos.query .respond = none := rfl
@[simp] theorem query_recvNext : Pos.query .recvNext = none := rfl
@[simp] theorem query_quiesce : Pos.query .quiesce = none := rfl
@[simp] theorem query_enRestore (r : TxResult) : Pos.query (.enRestore r) = none := rfl
@[simp] theorem query_complete (r : TxResult) : Pos.query (.complete r) = none := rfl
@[simp] theorem query_testIdle : Pos.query .testIdle = some .busState := rfl
@[simp] theorem query_testWif : Pos.query .testWif = some .writeInterruptFlag := rfl
@[simp] theorem query_testAck : Pos.query .testAck = some .ackState := rfl
@[simp] theorem query_testArb : Pos.query .testArb = some .arbitrationLost := rfl
@[simp] theorem query_testHold : Pos.query .testHold = some .clockHeld := rfl
@[simp] theorem query_testArbStop : Pos.query .testArbStop = some .arbitrationLost := rfl
@[simp] theorem query_testArbRead : Pos.query .testArbRead = some .arbitrationLost := rfl
@[simp] theorem query_testRif : Pos.query .testRif = some .readInterruptFlag := rfl

/-- A position that is no test settles at once. -/
theorem settle_rest (n : Nat) (s : State) (h : s.pos.query = none) : settle n s = .next s := by
  cases n <;> simp [settle, h]

/-- One test: a false output, or a row that is executed. -/
theorem settle_test (n : Nat) (s : State) (q : Query) (h : s.pos.query = some q) :
    settle (n + 1) s =
      match decode s.cfg (.status q s.snap) with
      | .error _ => settle n s.outputFalse
      | .ok i => match exec i s with
        | .next t => settle n t
        | .fault f => .fault f
        | .refused r => .refused r := by
  rw [settle, h] <;> rfl

@[simp] theorem thenSettle_next (s : State) : thenSettle (.next s) = settle maxTests s := rfl
@[simp] theorem thenSettle_fault (f : Fault) : thenSettle (.fault f) = .fault f := rfl
@[simp] theorem thenSettle_refused (r : Refusal) : thenSettle (.refused r) = .refused r := rfl

@[simp] theorem step_reset (s : State) (h : s.resetIn = true) : step s = .next s.applyReset := by simp [step, h]

@[simp] theorem step_running (s : State) (h : s.resetIn = false) : step s = stepRunning s := by simp [step, h]

end Sys2Proof.Machine
end

