-- ==== Sys2Proof/Laws/PerInstr.lean ====
section
/-! SUPPORT. The family of laws made per instruction. Channel: the encoder puts every instruction on the channel of its row's
format (30_encoding.md R70). -/

namespace Sys2Proof.Laws.Channel

/-- The instruction's message has its row's format. -/
def Statement (i : Instr) : Prop := (encode i).format = i.format

theorem configure : Statement .configure := rfl
theorem write (addr : Byte) (data : List Byte) : Statement (.write addr data) := rfl
theorem read (addr : Byte) (buffer : List Byte) : Statement (.read addr buffer) := rfl
theorem resOk : Statement .resOk := rfl
theorem resNack : Statement .resNack := rfl
theorem resPartialTransmit (index : Nat) : Statement (.resPartialTransmit index) := rfl
theorem resArbitrationLost : Statement .resArbitrationLost := rfl
theorem busStateBusError (s : Byte) : Statement (.busStateBusError s) := rfl
theorem busStateUnknown (s : Byte) : Statement (.busStateUnknown s) := rfl
theorem busStateIdle (s : Byte) : Statement (.busStateIdle s) := rfl
theorem busStateOwner (s : Byte) : Statement (.busStateOwner s) := rfl
theorem busStateBusy (s : Byte) : Statement (.busStateBusy s) := rfl
theorem readInterruptFlag (s : Byte) : Statement (.readInterruptFlag s) := rfl
theorem writeInterruptFlag (s : Byte) : Statement (.writeInterruptFlag s) := rfl
theorem clockHeld (s : Byte) : Statement (.clockHeld s) := rfl
theorem ackStateNack (s : Byte) : Statement (.ackStateNack s) := rfl
theorem ackStateAck (s : Byte) : Statement (.ackStateAck s) := rfl
theorem arbitrationLostAliased (s : Byte) : Statement (.arbitrationLostAliased s) := rfl
theorem arbitrationLostSeparate (s : Byte) : Statement (.arbitrationLostSeparate s) := rfl
theorem respondAck : Statement .respondAck := rfl
theorem respondNack : Statement .respondNack := rfl
theorem recvNext : Statement .recvNext := rfl
theorem stop : Statement .stop := rfl
theorem repStart : Statement .repStart := rfl
theorem addrWrite (a : BitVec 7) : Statement (.addrWrite a) := rfl
theorem addrRead (a : BitVec 7) : Statement (.addrRead a) := rfl
theorem enSet (e : BitVec 7) : Statement (.enSet e) := rfl
theorem enRestore (e : Byte) : Statement (.enRestore e) := rfl

end Sys2Proof.Laws.Channel
end

