-- ==== Sys2Proof/Tests/Slice0.lean ====
section
/-! SUPPORT. The model's own tests. Expected results are the spec's examples and vectors, named in each comment (rules R<n>;
vectors D, A, W, RD of 95_test_vectors.md), or hand calculation from a rule. The last section shows, for every statement with
hypotheses, that they can be met. -/

namespace Sys2Proof.Tests

open Sys2Proof Sys2Proof.Machine Sys2Proof.Safety

/-- The default layout with values for the OPEN parameters: `P_BASE` 0x800, lengths below 4, two quiescence reads. -/
def cfg : Config where
  base := 0x800
  offHold := 0
  offCtrla := 3
  offCmd := 4
  offStatus := 5
  offBaud := 6
  offAddr := 7
  offData := 8
  posRif := 7
  posWif := 6
  posClkHold := 5
  posRxAck := 4
  posArbLost := 3
  posBusErr := 2
  posBusState := 0
  arbAlias := true
  maxLen := 4
  quiesceReads := 2
  hold := 0x11
  baud := 0x22

/-- The same with `P_ARB_ALIAS` false. -/
def cfgSep : Config := { cfg with arbAlias := false }

/-- An idle block with those parameters, two data bytes, and the environment's next answers. -/
def idle (answers : List Byte) : State :=
  { State.reset with cfg := cfg, port := Memory.afterReset cfg 0, answers := answers }

/-- Its port registers each hold a byte. -/
theorem test_port_registers (r : PortReg) : (Memory.read (Memory.afterReset cfg 0) (regAddr cfg r)).isSome = true := by
  rw [memory_read_afterReset]
  rfl

/-- The block in the middle of an operation: two data bytes 0x0A, 0x0B, or a buffer 0x01, 0x02; saved CTRLA 0xC0. -/
def busy (op : Op) (phase : Phase) (pos : Pos) (answers : List Byte) : State :=
  { idle answers with
    op := op, phase := phase, pos := pos, addr := 0x2A, len := 2, data := [0x0A, 0x0B], buf := [0x01, 0x02], savedEn := 0xC0 }

/-- What a test looks at: where the block stands and the accesses it has made. -/
def seen : Host.Outcome State Fault Refusal → Option (Phase × Pos × List PortAccess)
  | .next t => some (t.phase, t.pos, t.trace)
  | .fault _ => none
  | .refused _ => none

/-- The results delivered. -/
def results : Host.Outcome State Fault Refusal → List Delivery
  | .next t => t.delivered
  | .fault _ => []
  | .refused _ => []

/-- The state after a step that goes on. -/
def after : Host.Outcome State Fault Refusal → State
  | .next t => t
  | .fault _ => State.reset
  | .refused _ => State.reset

/-! ### Well-formedness: an ill-formed term for each check -/

theorem test_wf_write_fits : (Instr.write 0x2A [1, 2, 3]).wf cfg = true := by decide

theorem test_wf_write_too_long : (Instr.write 0x2A [1, 2, 3, 4]).wf cfg = false := by decide

theorem test_wf_read_too_long : (Instr.read 0x2A [0, 0, 0, 0]).wf cfg = false := by decide

theorem test_wf_index_too_big : (Instr.resPartialTransmit 4).wf cfg = false := by decide

theorem test_wf_busError_clear : (Instr.busStateBusError 0x01).wf cfg = false := by decide

theorem test_wf_unknown_error_set : (Instr.busStateUnknown 0x04).wf cfg = false := by decide

theorem test_wf_idle_error_set : (Instr.busStateIdle 0x05).wf cfg = false := by decide

theorem test_wf_owner_other_state : (Instr.busStateOwner 0x03).wf cfg = false := by decide

theorem test_wf_busy_other_state : (Instr.busStateBusy 0x02).wf cfg = false := by decide

theorem test_wf_rif_clear : (Instr.readInterruptFlag 0x7F).wf cfg = false := by decide

theorem test_wf_wif_clear : (Instr.writeInterruptFlag 0xBF).wf cfg = false := by decide

theorem test_wf_clockHeld_clear : (Instr.clockHeld 0xDF).wf cfg = false := by decide

theorem test_wf_nack_clear : (Instr.ackStateNack 0xEF).wf cfg = false := by decide

theorem test_wf_ack_set : (Instr.ackStateAck 0x10).wf cfg = false := by decide

theorem test_wf_aliased_clear : (Instr.arbitrationLostAliased 0xEF).wf cfg = false := by decide

theorem test_wf_aliased_other_parameter : (Instr.arbitrationLostAliased 0xFF).wf cfgSep = false := by decide

theorem test_wf_separate_clear : (Instr.arbitrationLostSeparate 0xF7).wf cfgSep = false := by decide

theorem test_wf_separate_other_parameter : (Instr.arbitrationLostSeparate 0xFF).wf cfg = false := by decide

/-! ### Decoding: for every constructor a message written out from its encoding -/

/-- R71: OP 000. -/
theorem test_decode_configure : decode cfg (.req { header := 0b00000000, operands := none }) = .ok (.configure) := rfl

/-- R71: OP 001, ADDR, LEN, LEN bytes. -/
theorem test_decode_write :
    decode cfg (.req { header := 0b00000001, operands := some { addr := 0xAA, len := 2, bytes := [7, 9] } }) =
      .ok (.write 0xAA [7, 9]) := rfl

/-- R71: OP 010. -/
theorem test_decode_read :
    decode cfg (.req { header := 0b00000010, operands := some { addr := 0x2A, len := 1, bytes := [5] } }) =
      .ok (.read 0x2A [5]) := rfl

/-- R74: RC 0. -/
theorem test_decode_resOk : decode cfg (.res 0b00000000 0) = .ok (.resOk) := rfl

/-- R74: RC 1. -/
theorem test_decode_resNack : decode cfg (.res 0b00000001 0) = .ok (.resNack) := rfl

/-- R74: RC 2 with INDEX. -/
theorem test_decode_resPartialTransmit : decode cfg (.res 0b00000010 3) = .ok (.resPartialTransmit 3) := rfl

/-- R74: RC 3. -/
theorem test_decode_resArbitrationLost : decode cfg (.res 0b00000011 0) = .ok (.resArbitrationLost) := rfl

/-- R81, vector D11. -/
theorem test_decode_busError : decode cfg (.status .busState 0b11111100) = .ok (.busStateBusError 0xFC) := rfl

/-- R81, vector D8. -/
theorem test_decode_unknown : decode cfg (.status .busState 0b00010000) = .ok (.busStateUnknown 0x10) := rfl

/-- R81, vector D9. -/
theorem test_decode_idle : decode cfg (.status .busState 0b11111001) = .ok (.busStateIdle 0xF9) := rfl

/-- R81, vector D17. -/
theorem test_decode_owner : decode cfg (.status .busState 0b01100010) = .ok (.busStateOwner 0x62) := rfl

/-- R81, vector D10. -/
theorem test_decode_busy : decode cfg (.status .busState 0b11111011) = .ok (.busStateBusy 0xFB) := rfl

/-- R81, vector D22. -/
theorem test_decode_rif : decode cfg (.status .readInterruptFlag 0b10100010) = .ok (.readInterruptFlag 0xA2) := rfl

/-- R81, vector D17. -/
theorem test_decode_wif : decode cfg (.status .writeInterruptFlag 0b01100010) = .ok (.writeInterruptFlag 0x62) := rfl

/-- R81, vector D14. -/
theorem test_decode_clockHeld : decode cfg (.status .clockHeld 0b00100010) = .ok (.clockHeld 0x22) := rfl

/-- R81, vector D19. -/
theorem test_decode_nack : decode cfg (.status .ackState 0b01110010) = .ok (.ackStateNack 0x72) := rfl

/-- R81, vector D17. -/
theorem test_decode_ack : decode cfg (.status .ackState 0b01100010) = .ok (.ackStateAck 0x62) := rfl

/-- R81, vector D19. -/
theorem test_decode_aliased : decode cfg (.status .arbitrationLost 0b01110010) = .ok (.arbitrationLostAliased 0x72) := rfl

/-- R81, vector D18. -/
theorem test_decode_separate :
    decode cfgSep (.status .arbitrationLost 0b01101010) = .ok (.arbitrationLostSeparate 0x6A) := rfl

/-- R85. -/
theorem test_decode_respondAck : decode cfg (.cmd 0b00000000) = .ok (.respondAck) := rfl

/-- R85. -/
theorem test_decode_repStart : decode cfg (.cmd 0b00000001) = .ok (.repStart) := rfl

/-- R85. -/
theorem test_decode_recvNext : decode cfg (.cmd 0b00000010) = .ok (.recvNext) := rfl

/-- R85. -/
theorem test_decode_stop : decode cfg (.cmd 0b00000011) = .ok (.stop) := rfl

/-- R85. -/
theorem test_decode_respondNack : decode cfg (.cmd 0b00000100) = .ok (.respondNack) := rfl

/-- R88, vector A1. -/
theorem test_decode_addrWrite : decode cfg (.addrB 0b01010100) = .ok (.addrWrite 0b0101010) := rfl

/-- R88, vector A2. -/
theorem test_decode_addrRead : decode cfg (.addrB 0b01010101) = .ok (.addrRead 0b0101010) := rfl

/-- R90, the example of R121. -/
theorem test_decode_enSet : decode cfg (.ctrlEntry 0b11000001) = .ok (.enSet 0b1100000) := rfl

/-- R90. -/
theorem test_decode_enRestore : decode cfg (.ctrlExit 0b11000000) = .ok (.enRestore 0b11000000) := rfl

/-- R73: OP 011. -/
theorem test_refuse_reservedOp : decode cfg (.req { header := 0x03, operands := none }) = .error .reservedHeader := rfl

/-- R73: bit 3 set. -/
theorem test_refuse_reservedBits : decode cfg (.req { header := 0x09, operands := none }) = .error .reservedHeader := rfl

/-- R71: LEN is below `P_MAX_LEN`. -/
theorem test_refuse_tooLong :
    decode cfg (.req { header := 0x01, operands := some { addr := 0, len := 4, bytes := [1, 2, 3, 4] } }) =
      .error .tooLong := rfl

/-- R72: LEN bytes. -/
theorem test_refuse_mismatch :
    decode cfg (.req { header := 0x02, operands := some { addr := 0, len := 2, bytes := [1] } }) =
      .error .lengthMismatch := rfl

/-- R71: WRITE has operands. -/
theorem test_refuse_form : decode cfg (.req { header := 0x01, operands := none }) = .error .operandForm := rfl

/-- R74: bits 7:2 are 0. -/
theorem test_refuse_result : decode cfg (.res 0x04 0) = .error .reservedResult := rfl

/-- R74: INDEX only with RC 2. -/
theorem test_refuse_index : decode cfg (.res 0x01 1) = .error .strayIndex := rfl

/-- R81: a false output has no row. -/
theorem test_refuse_falseOutput : decode cfg (.status .writeInterruptFlag 0x22) = .error .outputFalse := rfl

/-- R86. -/
theorem test_refuse_command : decode cfg (.cmd 0x05) = .error .reservedCommand := rfl

/-- R90: at entry ENABLE is set. -/
theorem test_refuse_enable : decode cfg (.ctrlEntry 0xC0) = .error .enableClear := rfl

/-! ### One step of each instruction -/

/-- R152. -/
theorem test_configure_baud :
    seen (exec .configure (busy .configure .idle .baud [])) = some (.idle, .forceIdle, [.write .baud 0x22]) := by decide

/-- R152, R41. -/
theorem test_configure_forceIdle :
    seen (exec .configure (busy .configure .idle .forceIdle [])) =
      some (.idle, .complete .ok, [.write .status 0x01]) := by decide

/-- R120. -/
theorem test_write_saves_enable :
    seen (exec (.write 0x2A [1]) (busy .write .idle .enSave [0x80])) =
      some (.busAcquire, .enSet, [.read .ctrla 0x80]) := by decide

/-- R127, R164. -/
theorem test_write_second_byte :
    seen (exec (.write 0x2A []) { busy .write .write .putByte [] with k := 1 }) =
      some (.write, .waitWif, [.write .data 0x0B]) := by decide

/-- R173: the byte goes to `buf[k]`. -/
theorem test_read_captures :
    (after (exec (.read 0x2A []) { busy .read .read .readData [0x5A] with k := 1 })).buf = [0x01, 0x5A] := by decide

/-- R131: the value read is not used. -/
theorem test_read_last_quiesce :
    seen (exec (.read 0x2A []) { busy .read .stop .quiesce [0xFF] with q := 1 }) =
      some (.stop, .enRestore .ok, [.read .status 0xFF]) := by decide

/-- R74, R151. -/
theorem test_resOk :
    results (exec .resOk (busy .write .stop (.complete .ok) [])) = [{ code := 0, index := 0, buffer := none }] := by decide

/-- R191. -/
theorem test_resNack :
    results (exec .resNack (busy .write .error (.complete (.err .nack)) [])) =
      [{ code := 1, index := 0, buffer := none }] := by decide

/-- R192. -/
theorem test_resPartialTransmit :
    results (exec (.resPartialTransmit 1) (busy .write .error (.complete (.err (.partialTransmit 1))) [])) =
      [{ code := 2, index := 1, buffer := none }] := by decide

/-- R193, R174: a read hands its buffer back. -/
theorem test_resArbitrationLost :
    results (exec .resArbitrationLost (busy .read .error (.complete (.err .arbitrationLost)) [])) =
      [{ code := 3, index := 0, buffer := some [0x01, 0x02] }] := by decide

/-- R124: a status with BUSERR set and BUSSTATE = Idle repeats the loop. -/
theorem test_busError_waits :
    seen (exec (.busStateBusError 0x05) (busy .write .busAcquire .testIdle [])) =
      some (.busAcquire, .waitIdle, []) := by decide

/-- R124. -/
theorem test_unknown_waits :
    seen (exec (.busStateUnknown 0x00) (busy .write .busAcquire .testIdle [])) =
      some (.busAcquire, .waitIdle, []) := by decide

/-- R124. -/
theorem test_idle_goes_on :
    seen (exec (.busStateIdle 0x01) (busy .write .busAcquire .testIdle [])) = some (.address, .sendAddr, []) := by decide

/-- R124. -/
theorem test_owner_waits :
    seen (exec (.busStateOwner 0x02) (busy .write .busAcquire .testIdle [])) =
      some (.busAcquire, .waitIdle, []) := by decide

/-- R124. -/
theorem test_busy_waits :
    seen (exec (.busStateBusy 0x03) (busy .write .busAcquire .testIdle [])) =
      some (.busAcquire, .waitIdle, []) := by decide

/-- R173. -/
theorem test_rif_ends_poll :
    seen (exec (.readInterruptFlag 0xA2) (busy .read .read .testRif [])) = some (.read, .readData, []) := by decide

/-- R126. -/
theorem test_wif_ends_wait :
    seen (exec (.writeInterruptFlag 0x62) (busy .write .address .testWif [])) = some (.address, .testAck, []) := by decide

/-- R165. -/
theorem test_clockHeld_last_byte :
    seen (exec (.clockHeld 0x62) { busy .write .write .testHold [] with k := 1 }) =
      some (.stop, .issueStop, []) := by decide

/-- R166: an empty write issues no STOP. -/
theorem test_clockHeld_address :
    seen (exec (.clockHeld 0x62) { busy .write .address .testHold [] with len := 0 }) =
      some (.address, .enRestore .ok, []) := by decide

/-- R164. -/
theorem test_nack_first_byte :
    seen (exec (.ackStateNack 0x72) (busy .write .write .testAck [])) =
      some (.error, .enRestore (.err (.partialTransmit 0)), []) := by decide

/-- R165: not `PartialTransmit`. -/
theorem test_nack_last_byte :
    seen (exec (.ackStateNack 0x72) { busy .write .write .testAck [] with k := 1 }) =
      some (.error, .enRestore (.err .nack), []) := by decide

/-- R128. -/
theorem test_ack_goes_on :
    seen (exec (.ackStateAck 0x62) (busy .write .write .testAck [])) = some (.write, .testArb, []) := by decide

/-- R135: RXACK after STOP reads as arbitration lost. -/
theorem test_aliased_after_stop :
    seen (exec (.arbitrationLostAliased 0x11) (busy .write .stop .testArbStop [])) =
      some (.error, .enRestore (.err .arbitrationLost), []) := by decide

/-- R173. -/
theorem test_separate_in_poll :
    seen (exec (.arbitrationLostSeparate 0x8A) { busy .read .read .testArbRead [] with cfg := cfgSep }) =
      some (.error, .enRestore (.err .arbitrationLost), []) := by decide

/-- R129. -/
theorem test_respondAck :
    seen (exec .respondAck (busy .read .read .respond [])) = some (.read, .recvNext, [.write .cmd 0x00]) := by decide

/-- R129. -/
theorem test_respondNack :
    seen (exec .respondNack (busy .read .read .respond [])) = some (.read, .recvNext, [.write .cmd 0x04]) := by decide

/-- R130, R173. -/
theorem test_recvNext_more :
    seen (exec .recvNext (busy .read .read .recvNext [])) = some (.read, .pollRead, [.write .cmd 0x02]) := by decide

/-- R175: the last byte is no exception. -/
theorem test_recvNext_last :
    seen (exec .recvNext { busy .read .read .recvNext [] with k := 1 }) =
      some (.stop, .issueStop, [.write .cmd 0x02]) := by decide

/-- R132, R165. -/
theorem test_stop_write :
    seen (exec .stop (busy .write .stop .issueStop [])) = some (.stop, .arbCheck, [.write .cmd 0x03]) := by decide

/-- R132, R175. -/
theorem test_stop_read :
    seen (exec .stop (busy .read .stop .issueStop [])) = some (.stop, .quiesce, [.write .cmd 0x03]) := by decide

/-- R133. -/
theorem test_repStart_refused : exec .repStart (busy .write .stop .issueStop []) = .refused .repeatedStartNeverIssued := rfl

/-- R125. -/
theorem test_addrWrite :
    seen (exec (.addrWrite 0x2A) (busy .write .address .sendAddr [])) =
      some (.address, .waitWif, [.write .addr 0x54]) := by decide

/-- R125, R172: no wait for WIF. -/
theorem test_addrRead :
    seen (exec (.addrRead 0x2A) (busy .read .address .sendAddr [])) =
      some (.read, .pollRead, [.write .addr 0x55]) := by decide

/-- R121. -/
theorem test_enSet :
    seen (exec (.enSet 0b1100000) (busy .write .busAcquire .enSet [])) =
      some (.busAcquire, .waitIdle, [.write .ctrla 0xC1]) := by decide

/-- R122: unconditional, ENABLE stays set. -/
theorem test_enRestore :
    seen (exec (.enRestore 0x01) (busy .write .error (.enRestore (.err .nack)) [])) =
      some (.error, .complete (.err .nack), [.write .ctrla 0x01]) := by decide

/-! ### The step -/

/-- R128, vector D15: ACK with clock hold clear. -/
theorem test_step_classifies_fallback :
    seen (step (busy .write .address .waitWif [0x42])) =
      some (.error, .enRestore (.err .arbitrationLost), [.read .status 0x42]) := by decide

/-- R196, vector D20: NACK wins when both are true. -/
theorem test_step_nack_before_loss :
    seen (step { busy .write .write .waitWif [0x7A] with cfg := cfgSep, k := 1 }) =
      some (.error, .enRestore (.err .nack), [.read .status 0x7A]) := by decide

/-- R196, vector D23: arbitration loss is tested before RIF. -/
theorem test_step_loss_before_rif :
    seen (step (busy .read .read .pollRead [0xB2])) =
      some (.error, .enRestore (.err .arbitrationLost), [.read .status 0xB2]) := by decide

/-- R73. -/
theorem test_step_refuses_header :
    step { idle [] with requests := [{ header := 0x83, operands := none }] } = .refused .notARequest := rfl

/-- R220. -/
theorem test_reset_abandons :
    (after (step { busy .write .error (.enRestore (.err .nack)) [] with resetIn := true })).delivered = [] := rfl

/-- The table word of STOP (R85), read and run as the first instruction. -/
theorem test_table_word_runs :
    seen (step (State.reset.withFetchWord 8 0x03)) = some (.stop, .arbCheck, [.write .cmd 0x03]) := rfl

/-! ### Hypotheses that can be met: a state and operands for every statement that has any -/

theorem test_meets_BusStateFollowsTable :
    (0x05#8).getLsbD cfg.posBusErr = true ∧
      ∀ x ∈ [(0x00#8, 0), (0xF9, 1), (0x62, 2), (0xFB, 3)],
        x.1.getLsbD cfg.posBusErr = false ∧ (x.1 >>> cfg.posBusState).toNat % 4 = x.2 := by decide

theorem test_meets_AliasDecidesWhetherLossShows :
    cfg.arbAlias = true ∧ cfgSep.arbAlias = false ∧ cfgSep.wf = true := by decide

theorem test_meets_ClassifyTestsInOrder :
    ackState cfg 0x72 = .nack ∧
      (ackState cfgSep 0x6A = .ack ∧ arbitrationLost cfgSep 0x6A = true) ∧
      (ackState cfg 0x62 = .ack ∧ arbitrationLost cfg 0x62 = false ∧ Machine.clockHeld cfg 0x62 = true) ∧
      (ackState cfg 0x42 = .ack ∧ arbitrationLost cfg 0x42 = false ∧ Machine.clockHeld cfg 0x42 = false) := by decide

theorem test_meets_DecoderRowsArePure :
    encode (.clockHeld 0x62) = .status .clockHeld 0x62 ∧
      (busy .write .address .waitWif []).pos.query ≠ some .clockHeld ∧
      (busy .write .address .testWif []).pos.query ≠ some .clockHeld := by decide

theorem test_meets_AddressByteIsShiftedAddress :
    (busy .write .address .sendAddr []).pos = .sendAddr ∧ (busy .write .address .sendAddr []).op = .write ∧
      (busy .read .address .sendAddr []).pos = .sendAddr ∧ (busy .read .address .sendAddr []).op = .read := by decide

theorem test_meets_CommandBytesAreFive : 5 ≤ (0x05#8).toNat ∧ 5 ≤ (0xFF#8).toNat := by decide

theorem test_meets_DecodeEncodeAgree :
    (Instr.write 0xFF [1, 2, 3]).wf cfg = true ∧ (Instr.resPartialTransmit 3).wf cfg = true ∧
      (Instr.arbitrationLostSeparate 0x08).wf cfgSep = true := by decide

theorem test_meets_EncodeDecodeAgree : decode cfg (.cmd 0x04) = .ok .respondNack := rfl

theorem test_meets_AcceptanceCopiesOperands : (idle []).phase = .idle ∧ (idle []).op = .none := by decide

theorem test_meets_RequestsWaitWhileBusy :
    ((busy .write .write .waitWif []).op ≠ .none ∧ (busy .write .write .waitWif []).op ≠ .configure ∧
      (busy .write .write .waitWif []).op ≠ .read) ∧
      ((busy .read .read .pollRead []).op ≠ .none ∧ (busy .read .read .pollRead []).op ≠ .write) := by decide

theorem test_meets_ConfigureMakesItsWrites :
    ∀ p ∈ [Pos.hold, .baud, .forceIdle],
      (busy .configure .idle p []).op = .configure ∧ (busy .configure .idle p []).pos = p := by decide

/-- An idle block that is presented one request. -/
def presented (r : Request) (answers : List Byte) : State := { idle answers with requests := [r] }

theorem test_ready (r : Request) (answers : List Byte) : Ready (presented r answers) := ⟨rfl, rfl, rfl, rfl⟩

theorem test_meets_ConfigureTransaction :
    Ready (presented { header := 0, operands := none } []) ∧
      (presented { header := 0, operands := none } []).requests = { header := 0x00, operands := none } :: [] :=
  ⟨test_ready _ _, rfl⟩

theorem test_meets_WriteMakesItsAccesses :
    (∀ p ∈ [Pos.enSave, .waitIdle, .waitWif, .arbCheck, .putByte],
      (busy .write .write p []).op = .write ∧ (busy .write .write p []).pos = p) ∧
      (busy .write .write .putByte []).data[({ busy .write .write .putByte [] with k := 1 } : State).k]? = some 0x0B := by
  decide

theorem test_meets_ReadMakesItsAccesses :
    (∀ p ∈ [Pos.enSave, .waitIdle, .pollRead, .readData, .quiesce],
      (busy .read .read p []).op = .read ∧ (busy .read .read p []).pos = p) ∧
      ({ busy .read .read .readData [] with k := 1 } : State).k <
        ({ busy .read .read .readData [] with k := 1 } : State).buf.length := by decide

theorem test_meets_PortReadIsTheEnvironmentsAnswer :
    ((idle [0xFF]).answers = 0xFF :: [] ∧ (idle []).answers = []) ∧
      (∀ op ∈ [Op.write, .read], (busy op .idle .enSave []).op = op ∧ (busy op .idle .enSave []).pos = .enSave ∧
        (busy op .busAcquire .waitIdle []).op = op ∧ (busy op .busAcquire .waitIdle []).pos = .waitIdle) ∧
      (∀ p ∈ [Pos.waitWif, .arbCheck], (busy .write .stop p []).op = .write ∧ (busy .write .stop p []).pos = p) ∧
      (∀ p ∈ [Pos.pollRead, .quiesce, .readData], (busy .read .read p []).op = .read ∧ (busy .read .read p []).pos = p) ∧
      ({ busy .read .read .readData [] with k := 1 } : State).k <
        ({ busy .read .read .readData [] with k := 1 } : State).buf.length ∧
      (busy .read .read .readData []).resetIn = false := by decide

theorem test_meets_ResultRowsFinish :
    some [0x01#8, 0x02] = (if (busy .read .stop (.complete .ok) []).op = .read then
      some (busy .read .stop (.complete .ok) []).buf else none) := by decide

theorem test_meets_RepeatedStartIsNeverIssued :
    step (busy .read .read .respond []) = .next (after (step (busy .read .read .respond []))) ∧
      (after (step (busy .read .read .respond []))).trace =
        (busy .read .read .respond []).trace ++ [.write .cmd 0x00] := ⟨rfl, rfl⟩

theorem test_meets_AddressRowsSendAddress (a : BitVec 7) :
    (Instr.addrWrite a, a ++ (0 : BitVec 1)) ∈
      [(Instr.addrWrite a, a ++ (0 : BitVec 1)), (.addrRead a, a ++ (1 : BitVec 1))] ∧
    (Instr.addrRead a, a ++ (1 : BitVec 1)) ∈
      [(Instr.addrWrite a, a ++ (0 : BitVec 1)), (.addrRead a, a ++ (1 : BitVec 1))] :=
  ⟨.head _, .tail _ (.head _)⟩

theorem test_meets_StepsWriteTheSavedEnable :
    ((busy .write .busAcquire .enSet []).resetIn = false ∧ (busy .write .busAcquire .enSet []).pos = .enSet) ∧
      ((busy .read .stop (.enRestore .ok) []).resetIn = false ∧
        (busy .read .stop (.enRestore .ok) []).pos = .enRestore .ok) := by decide

theorem test_meets_PortWritesHaveAFrame :
    (exec (.write 0 []) (idle []) = .next (after (exec (.write 0 []) (idle []))) ∧
      storedReg (idle []) (.write 0 []) = none) ∧
      (exec .stop (idle []) = .next (after (exec .stop (idle []))) ∧ storedReg (idle []) .stop = some .cmd) :=
  ⟨⟨rfl, rfl⟩, rfl, rfl⟩

theorem test_meets_OnlyIdleEndsTheWait :
    (busy .write .busAcquire .testIdle []).pos = .testIdle ∧ busState cfg 0x01 = .ok .idle ∧
      busState cfg 0x00 = .ok .unknown ∧ busState cfg 0x02 = .ok .owner ∧ busState cfg 0x03 = .ok .busy ∧
      busState cfg 0x05 = .busError := by decide

theorem test_meets_InterruptFlagsEndTheirPolls :
    ((busy .write .write .testWif []).pos = .testWif ∧ wif cfg 0x40 = true) ∧
      ((busy .read .read .testRif []).pos = .testRif ∧ rif cfg 0x80 = true) := by decide

theorem test_meets_ClassificationRowsBranch :
    ((busy .write .write .testAck []).pos = .testAck ∧ ackState cfg 0x62 = .ack ∧ ackState cfg 0x72 = .nack) ∧
      ((busy .write .write .testHold []).pos = .testHold ∧ Machine.clockHeld cfg 0x62 = true) := by decide

theorem test_meets_ArbitrationRowsRaise :
    (∀ p ∈ [Pos.testArb, .testArbStop, .testArbRead], (busy .write .write p []).pos = p) ∧
      (arbitrationLost cfg 0x10 = true ∧ cfg.arbAlias = true) ∧
      (arbitrationLost cfgSep 0x08 = true ∧ cfgSep.arbAlias = false) := by decide

theorem test_meets_StepRunsTheDecodedInstruction :
    ((busy .write .stop .issueStop []).resetIn = false ∧ (busy .write .stop .issueStop []).message = some (.cmd 0x03) ∧
      decode (busy .write .stop .issueStop []).cfg (.cmd 0x03) = .ok .stop) ∧
      ((busy .read .stop .quiesce []).message = none ∧
        (busy .read .stop .quiesce []).pos.ownedBy (busy .read .stop .quiesce []).op = true ∧
        (busy .read .stop .quiesce []).requestInProgress = some (.read 0x2A [0x01, 0x02])) :=
  ⟨⟨rfl, rfl, rfl⟩, rfl, rfl, rfl⟩

theorem test_meets_IdleBlockWaits : Ready (idle []) ∧ (idle []).requests = [] := ⟨⟨rfl, rfl, rfl, rfl⟩, rfl⟩

theorem test_meets_ReservedHeaderIsRefused :
    Ready (presented { header := 0x03, operands := none } []) ∧
      (∀ h ∈ [0x03#8, 0x07], 3 ≤ (h &&& 0b00000111).toNat) ∧ ∀ h ∈ [0x08#8, 0xF8], h &&& 0b11111000 ≠ 0 :=
  ⟨test_ready _ _, by decide, by decide⟩

theorem test_meets_WaitIdleStep :
    (busy .read .busAcquire .waitIdle [0x01]).resetIn = false ∧ transferring (busy .read .busAcquire .waitIdle [0x01]) ∧
      (busy .read .busAcquire .waitIdle [0x01]).pos = .waitIdle ∧
      (busy .read .busAcquire .waitIdle [0x01]).answers = 0x01 :: [] := ⟨rfl, .inr rfl, rfl, rfl⟩

theorem test_meets_WaitWifStepClassifies :
    (busy .write .address .waitWif [0x62]).resetIn = false ∧ (busy .write .address .waitWif [0x62]).op = .write ∧
      (busy .write .address .waitWif [0x62]).pos = .waitWif ∧
      (busy .write .address .waitWif [0x62]).answers = 0x62 :: [] := by decide

theorem test_meets_ReadPollStep :
    (busy .read .read .pollRead [0xA2]).resetIn = false ∧ (busy .read .read .pollRead [0xA2]).op = .read ∧
      (busy .read .read .pollRead [0xA2]).pos = .pollRead ∧
      (busy .read .read .pollRead [0xA2]).answers = 0xA2 :: [] := by decide

theorem test_meets_ArbCheckStep :
    (busy .write .stop .arbCheck [0x01]).resetIn = false ∧ (busy .write .stop .arbCheck [0x01]).op = .write ∧
      (busy .write .stop .arbCheck [0x01]).pos = .arbCheck ∧
      (busy .write .stop .arbCheck [0x01]).answers = 0x01 :: [] := by decide

theorem test_meets_QuiescenceReadsAreMade :
    (busy .read .stop .issueStop [0x01, 0xFF]).resetIn = false ∧ (busy .read .stop .issueStop [0x01, 0xFF]).op = .read ∧
      (busy .read .stop .issueStop [0x01, 0xFF]).pos = .issueStop ∧
      (busy .read .stop .issueStop [0x01, 0xFF]).answers = [0x01, 0xFF] ++ [] ∧
      [0x01#8, 0xFF].length = (busy .read .stop .issueStop [0x01, 0xFF]).cfg.quiesceReads := by decide

theorem test_meets_PollsAreUnbounded :
    ((busy .read .busAcquire .waitIdle [0x00, 0x05]).answers = [0x00, 0x05] ++ [] ∧
      transferring (busy .read .busAcquire .waitIdle [0x00, 0x05]) ∧
      ∀ b ∈ [0x00#8, 0x05], busState cfg b ≠ .ok .idle) ∧
      (∀ b ∈ [0x22#8, 0xB2], wif cfg b = false) ∧
      ∀ b ∈ [0x22#8, 0x62], arbitrationLost cfg b = false ∧ rif cfg b = false :=
  ⟨⟨rfl, .inr rfl, by decide⟩, by decide, by decide⟩

theorem test_meets_ErrorExitRestoresAndDelivers :
    (busy .write .write .waitWif []).resetIn = false ∧
      lengthFits (busy .write .write .waitWif []).cfg (resultIndex (.err (.partialTransmit 3))) = true := by decide

theorem test_meets_ResetAbandonsTheRequest :
    ({ busy .write .write .waitWif [] with resetIn := true } : State).resetIn = true := rfl

theorem test_meets_ResetLeavesThePortUnspecified :
    ({ busy .write .write .waitWif [] with resetIn := true } : State).resetIn = true ∧
      step { busy .write .write .waitWif [] with resetIn := true } =
        .next (after (step { busy .write .write .waitWif [] with resetIn := true })) := ⟨rfl, rfl⟩

theorem test_cfg_wf : cfg.wf = true := by decide

/-- The idle block meets the invariant, whatever it is presented. -/
theorem test_idle_invariant (r : Request) (answers : List Byte) : Invariant (presented r answers) :=
  ⟨test_cfg_wf, memory_afterReset_wf _ _, test_port_registers, (by decide : 0 < 4), (by decide : 0 < 4), (by decide : 0 ≤ 2), fun _ => rfl, fun _ => rfl, rfl, rfl⟩

/-- So does the block in the middle of an operation, where its position belongs to the phase and the operation. -/
theorem test_busy_invariant (op : Op) (phase : Phase) (pos : Pos) (answers : List Byte)
    (h : posOk (busy op phase pos answers)) : Invariant (busy op phase pos answers) :=
  ⟨test_cfg_wf, memory_afterReset_wf _ _, test_port_registers, (by decide : 2 < 4), (by decide : 0 < 4), (by decide : 0 ≤ 2), fun _ => rfl, fun _ => rfl, h⟩

theorem test_meets_StepKeepsTheInvariant :
    Invariant (busy .read .read .respond []) ∧
      step (busy .read .read .respond []) = .next (after (step (busy .read .read .respond []))) :=
  ⟨test_busy_invariant _ _ _ _ ⟨rfl, rfl, by decide⟩, rfl⟩

theorem test_meets_NoFaultUnderTheInvariant :
    Invariant (presented { header := 0xFF, operands := none } []) ∧
      step (presented { header := 0xFF, operands := none } []) = .refused .notARequest := ⟨test_idle_invariant _ _, rfl⟩

theorem test_meets_StepKeepsTheParameters :
    step (busy .write .stop .issueStop []) = .next (after (step (busy .write .stop .issueStop []))) := rfl

theorem test_meets_StepMakesOneAccessOrCompletes :
    (Invariant (presented { header := 0x00, operands := none } []) ∧
      step (presented { header := 0x00, operands := none } []) =
        .next (after (step (presented { header := 0x00, operands := none } [])))) ∧
    (Invariant (busy .write .stop (.complete .ok) []) ∧
      step (busy .write .stop (.complete .ok) []) = .next (after (step (busy .write .stop (.complete .ok) [])))) ∧
    (Invariant (busy .write .stop .issueStop []) ∧
      step (busy .write .stop .issueStop []) = .next (after (step (busy .write .stop .issueStop [])))) :=
  ⟨⟨test_idle_invariant _ _, rfl⟩, ⟨test_busy_invariant _ _ _ _ (.inl (.inr ⟨.inl rfl, rfl⟩)), rfl⟩,
    test_busy_invariant _ _ _ _ ⟨.inl rfl, rfl⟩, rfl⟩

theorem test_meets_OnlyAllowedAccesses :
    step (busy .read .address .sendAddr []) = .next (after (step (busy .read .address .sendAddr []))) ∧
      Invariant (busy .read .address .sendAddr []) := ⟨rfl, test_busy_invariant _ _ _ _ ⟨.inr rfl, rfl⟩⟩

theorem test_meets_PhaseFollowsTheTable :
    Invariant (busy .read .address .sendAddr []) ∧ (busy .read .address .sendAddr []).resetIn = false ∧
      step (busy .read .address .sendAddr []) = .next (after (step (busy .read .address .sendAddr []))) :=
  ⟨test_busy_invariant _ _ _ _ ⟨.inr rfl, rfl⟩, rfl, rfl⟩

theorem test_meets_ErrorsOfEachRequest :
    (Invariant (busy .configure .idle (.complete .ok) []) ∧
      (after (step (busy .configure .idle (.complete .ok) []))).delivered =
        [] ++ [{ code := 0, index := 0, buffer := none }]) ∧
    (Invariant (busy .read .error (.complete (.err .arbitrationLost)) []) ∧
      (after (step (busy .read .error (.complete (.err .arbitrationLost)) []))).delivered =
        [] ++ [{ code := 3, index := 0, buffer := some [0x01, 0x02] }]) ∧
    (Invariant (busy .write .error (.complete (.err (.partialTransmit 0))) []) ∧
      (after (step (busy .write .error (.complete (.err (.partialTransmit 0))) []))).delivered =
        [] ++ [{ code := 2, index := 0, buffer := none }]) :=
  ⟨⟨test_busy_invariant _ _ _ _ (.inr ⟨rfl, rfl, rfl⟩), rfl⟩,
    ⟨test_busy_invariant _ _ _ _ (.inl ⟨.inr rfl, rfl⟩), rfl⟩,
    test_busy_invariant _ _ _ _ (.inl ⟨rfl, rfl, by decide⟩), rfl⟩

theorem test_meets_BusyBlockIgnoresRequests :
    ((busy .write .stop .issueStop []).resetIn = false ∧ (busy .write .stop .issueStop []).pos ≠ .idle ∧
      step (busy .write .stop .issueStop []) = .next (after (step (busy .write .stop .issueStop [])))) ∧
      ((busy .none .idle .hold []).pos ≠ .idle ∧ step (busy .none .idle .hold []) = .fault .offPath) :=
  ⟨⟨rfl, by decide, rfl⟩, by decide, rfl⟩

theorem test_meets_StaleRegistersHaveNoInfluence :
    Ready (idle []) ∧ sameButStale (idle []) { idle [] with snap := 0xFF, k := 3, result := .err .nack } ∧
      run 1 (idle []) = .next (idle []) := ⟨⟨rfl, rfl, rfl, rfl⟩, rfl, rfl⟩

/-- The request of vector W10: an empty write to 0x2A. -/
def emptyWrite : Request := { header := 0x01, operands := some { addr := 0x2A, len := 0, bytes := [] } }

/-- The request of vector RD5: a read into an empty buffer. -/
def emptyRead : Request := { header := 0x02, operands := some { addr := 0x2A, len := 0, bytes := [] } }

theorem test_meets_WriteRunsItsPseudocode :
    Ready (presented emptyWrite [0x00, 0x01, 0x62]) ∧ lengthFits cfg ([] : List Byte).length = true ∧
      writeTranscript cfg 0x2A [] [0x00, 0x01, 0x62] = some
        { accesses := [.read .ctrla 0x00, .write .ctrla 0x01, .read .status 0x01, .write .addr 0x54,
            .read .status 0x62, .write .ctrla 0x00]
          result := .ok
          buffer := []
          rest := [] } := ⟨test_ready _ _, by decide, by decide⟩

theorem test_meets_ReadRunsItsPseudocode :
    Ready (presented { header := 0x02, operands := some { addr := 0x2A, len := 1, bytes := [0xEE] } }
      [0x00, 0x01, 0xA2, 0x01, 0x01, 0x01]) ∧ lengthFits cfg [0xEE#8].length = true ∧
      (readTranscript cfg 0x2A [0xEE] [0x00, 0x01, 0xA2, 0x01, 0x01, 0x01]).map
        (fun w => (w.accesses.length, w.result, w.buffer, w.rest)) = some (12, .ok, [0x01], []) :=
  ⟨test_ready _ _, by decide, by decide⟩

theorem test_meets_EnableIsSymmetric :
    Invariant (presented emptyWrite [0x00, 0x01, 0x62]) ∧ Ready (presented emptyWrite [0x00, 0x01, 0x62]) ∧
      ∃ t, run 8 (presented emptyWrite [0x00, 0x01, 0x62]) = .next t ∧
        completedOne (presented emptyWrite [0x00, 0x01, 0x62]) t :=
  ⟨test_idle_invariant _ _, test_ready _ _, _, rfl, rfl, rfl⟩

theorem test_meets_EnableIsHeldUntilTheExit :
    Invariant (presented emptyWrite [0x00, 0x00]) ∧ Ready (presented emptyWrite [0x00, 0x00]) ∧
      (∃ t, run 3 (presented emptyWrite [0x00, 0x00]) = .next t ∧
        t.delivered = (presented emptyWrite [0x00, 0x00]).delivered ∧ t.pos = .waitIdle) ∧
      ∃ t, run 4 (presented emptyWrite [0x00, 0x00]) = .next t ∧
        t.delivered = (presented emptyWrite [0x00, 0x00]).delivered ∧ t.pos = .waitIdle :=
  ⟨test_idle_invariant _ _, test_ready _ _, ⟨_, rfl, rfl, rfl⟩, _, rfl, rfl, rfl⟩

theorem test_meets_EmptyWriteSendsNoData :
    (presented emptyWrite []).requests =
      { header := 0x01, operands := some { addr := 0x2A, len := 0, bytes := [] } } :: [] ∧
      ∃ t, run 8 (presented emptyWrite [0x00, 0x01, 0x72]) = .next t ∧
        completedOne (presented emptyWrite [0x00, 0x01, 0x72]) t := ⟨rfl, _, rfl, rfl, rfl⟩

theorem test_meets_EmptyReadStopsAndSucceeds :
    Invariant (presented emptyRead [0x00, 0x01, 0x01, 0x01]) ∧ Ready (presented emptyRead [0x00, 0x01, 0x01, 0x01]) ∧
      ∃ t, run 10 (presented emptyRead [0x00, 0x01, 0x01, 0x01]) = .next t ∧
        completedOne (presented emptyRead [0x00, 0x01, 0x01, 0x01]) t :=
  ⟨test_idle_invariant _ _, test_ready _ _, _, rfl, rfl, rfl⟩

end Sys2Proof.Tests
end

