-- ==== Sys2Proof/Proofs/Scope.lean ====
section
/-! PROOFS of 00_scope.md: what one step of the block does on its interfaces (R6, R24), the reset state, the parameters.
The chain of lemmas: what each shared operation emits, then each instruction, then the tests of a snapshot, then the step
(`stepRunning_effect`). -/

namespace Sys2Proof.Proofs

open Sys2Proof.Machine Sys2Proof.Safety

/-! ### The dispatch of the requests -/

theorem exec_configure (s : State) : exec .configure s = execConfigure s := rfl
theorem exec_write (a : Byte) (d : List Byte) (s : State) : exec (.write a d) s = execWrite a d s := rfl
theorem exec_read (a : Byte) (b : List Byte) (s : State) : exec (.read a b) s = execRead a b s := rfl

/-! ### The decoder: what decodes encodes to the message it was read from -/

/-- The encoder puts an instruction on the channel of its row. -/
@[simp] theorem encode_format (i : Instr) : (encode i).format = i.format := by cases i <;> rfl

theorem encode_of_decodeOperands {c : Config} {h : Byte} {make : Byte → List Byte → Instr} {o : Option Operands} {i : Instr}
    (hmake : ∀ a l, encode (make a l) = .req { header := h, operands := some (operandsOf a l) })
    (hd : decodeOperands c make o = .ok i) : encode i = .req { header := h, operands := o } := by
  cases o with
  | none => cases hd
  | some o =>
    by_cases hfit : lengthFits c o.len = false
    · simp [decodeOperands, hfit] at hd
    · by_cases hlen : o.bytes.length = o.len
      · obtain rfl : make o.addr o.bytes = i := by simpa [decodeOperands, hfit, hlen] using hd
        simp [hmake, operandsOf, hlen]
      · simp [decodeOperands, hfit, hlen] at hd

theorem encode_of_decodeRequest {c : Config} {r : Request} {i : Instr} (hd : decodeRequest c r = .ok i) :
    encode i = .req r := by
  obtain ⟨h, o⟩ := r
  unfold decodeRequest at hd
  split at hd
  next hh =>
    cases o with
    | none => cases hd; cases hh; rfl
    | some o => cases hd
  next =>
    split at hd
    next hh => cases hh; exact encode_of_decodeOperands (fun _ _ => rfl) hd
    next =>
      split at hd
      next hh => cases hh; exact encode_of_decodeOperands (fun _ _ => rfl) hd
      next => cases hd

theorem encode_of_decodeResult {c : Config} {code : Byte} {index : Nat} {i : Instr}
    (hd : decodeResult c code index = .ok i) : encode i = .res code index := by
  unfold decodeResult at hd
  split at hd
  next hc =>
    subst hc
    split at hd <;> cases hd
    rfl
  next =>
    split at hd
    next hi =>
      subst hi
      repeat' split at hd
      all_goals cases hd
      all_goals subst_vars; rfl
    next => cases hd

theorem encode_of_decodeStatus {c : Config} {q : Query} {b : Byte} {i : Instr}
    (hd : decodeStatus c q b = .ok i) : encode i = .status q b := by
  cases q <;> simp only [decodeStatus] at hd <;> split at hd <;> cases hd
  case arbitrationLost => split <;> rfl
  all_goals rfl

theorem encode_of_decodeCommand {v : Byte} {i : Instr} (hd : decodeCommand v = .ok i) : encode i = .cmd v := by
  unfold decodeCommand at hd
  repeat' split at hd
  all_goals cases hd
  all_goals subst_vars; rfl

theorem encode_decodeAddrByte (v : Byte) : encode (decodeAddrByte v) = .addrB v := by
  have hparts := upper7_append_bit0 v
  unfold decodeAddrByte
  split
  next h =>
    rw [if_pos h] at hparts
    exact congrArg Message.addrB hparts
  next h =>
    rw [if_neg h] at hparts
    exact congrArg Message.addrB hparts

/-- What decodes encodes to the message it was read from (30_encoding.md R70). -/
theorem encode_of_decode {c : Config} {m : Message} {i : Instr} (hd : decode c m = .ok i) : encode i = m := by
  cases m with
  | req r => exact encode_of_decodeRequest hd
  | res code index => exact encode_of_decodeResult hd
  | status q b => exact encode_of_decodeStatus hd
  | cmd v => exact encode_of_decodeCommand hd
  | addrB v => cases hd; exact encode_decodeAddrByte v
  | ctrlEntry v =>
    have hparts := upper7_append_bit0 v
    simp only [decode] at hd
    split at hd <;> cases hd
    next h =>
      rw [if_pos h] at hparts
      exact congrArg Message.ctrlEntry hparts
  | ctrlExit v => cases hd; rfl

/-! ### What an operation emits -/

/-- From `s` to `t` the block kept its parameters, made the port accesses `l` and delivered the results `ds`. -/
structure Emits (s t : State) (l : List PortAccess) (ds : List Delivery) : Prop where
  cfg : t.cfg = s.cfg
  trace : t.trace = s.trace ++ l
  delivered : t.delivered = s.delivered ++ ds

/-- No access and no result. -/
abbrev Silent (s t : State) : Prop := Emits s t [] []

theorem Silent.refl (s : State) : Silent s s := ⟨rfl, by simp, by simp⟩

/-- An update of other fields than the parameters, the trace and the results is silent. -/
theorem Silent.of_eq {s t : State} (hc : t.cfg = s.cfg) (ht : t.trace = s.trace) (hd : t.delivered = s.delivered) :
    Silent s t := ⟨hc, by simp [ht], by simp [hd]⟩

theorem Emits.trans_silent {s t u : State} {l : List PortAccess} {ds : List Delivery} (h : Emits s t l ds)
    (h' : Silent t u) : Emits s u l ds :=
  ⟨h'.cfg.trans h.cfg, by simp [h'.trace, h.trace], by simp [h'.delivered, h.delivered]⟩

theorem portWrite_emits (s : State) (r : PortReg) (v : Byte) : Emits s (s.portWrite r v) [.write r v] [] :=
  ⟨rfl, rfl, by simp⟩

theorem snapStatus_emits (s : State) : Emits s s.snapStatus [.read .status s.answer] [] := ⟨rfl, rfl, by simp⟩

theorem enSave_emits (s : State) : Emits s s.enSave [.read .ctrla s.answer] [] := ⟨rfl, rfl, by simp⟩

theorem captureData_emits (s : State) : Emits s s.captureData [.read .data s.answer] [] := ⟨rfl, rfl, by simp⟩

theorem finish_emits (s : State) (r : TxResult) : Emits s (s.finish r) [] [s.delivery r] := ⟨rfl, by simp, rfl⟩

theorem goto_silent (s : State) (p : Pos) : Silent s (s.goto p) := .of_eq rfl rfl rfl

theorem raise_silent (s : State) (e : TxError) : Silent s (s.raise e) := .of_eq rfl rfl rfl

theorem enterAddress_silent (s : State) : Silent s s.enterAddress := .of_eq rfl rfl rfl

theorem enterStop_silent (s : State) : Silent s s.enterStop := .of_eq rfl rfl rfl

theorem afterSendAddr_silent (s : State) : Silent s s.afterSendAddr := by
  obtain ⟨-, -, h⟩ | ⟨-, -, h⟩ | ⟨-, h⟩ := afterSendAddr_cases s <;> rw [h] <;> exact .of_eq rfl rfl rfl

theorem proceed_silent (s : State) : Silent s s.proceed := by
  obtain ⟨-, -, h⟩ | ⟨-, -, h⟩ | ⟨-, -, h⟩ | ⟨-, -, h⟩ := proceed_cases s <;> rw [h] <;> exact .of_eq rfl rfl rfl

theorem afterRecvNext_silent (s : State) : Silent s s.afterRecvNext := by
  obtain ⟨-, h⟩ | ⟨-, h⟩ := afterRecvNext_cases s <;> rw [h] <;> exact .of_eq rfl rfl rfl

theorem quiesceOrExit_silent (s : State) : Silent s s.quiesceOrExit := by
  obtain ⟨-, h⟩ | ⟨-, h⟩ := quiesceOrExit_cases s <;> rw [h] <;> exact goto_silent s _

theorem quiesceRead_emits (s : State) : Emits s s.quiesceRead [.read .status s.answer] [] :=
  have hread : Emits s { s.snapStatus with q := s.q + 1 } [.read .status s.answer] [] := ⟨rfl, rfl, by simp⟩
  hread.trans_silent (quiesceOrExit_silent _)

theorem afterStop_silent (s : State) : Silent s s.afterStop := by
  obtain ⟨-, h⟩ | ⟨-, h⟩ := afterStop_cases s <;> rw [h]
  · have hq : Silent s { s with q := 0 } := .of_eq rfl rfl rfl
    exact hq.trans_silent (quiesceOrExit_silent _)
  · exact goto_silent s _

theorem afterRestore_silent (s : State) : Silent s s.afterRestore := by
  obtain ⟨r, -, h⟩ | ⟨-, h⟩ := afterRestore_cases s <;> rw [h]
  · exact goto_silent s _
  · exact .refl s

theorem returnTo_silent {s : State} {p : Pos} {next : State → State} (h : ∀ u, Silent u (next u)) :
    Silent s (s.returnTo p next) := by
  obtain ⟨-, h'⟩ | ⟨-, h'⟩ := returnTo_cases s p next <;> rw [h']
  · exact h s
  · exact .refl s

theorem onOutput_silent {s : State} {shown : Bool} {p : Pos} {taken : State → State} (h : ∀ u, Silent u (taken u)) :
    Silent s (s.onOutput shown p taken) := by
  obtain ⟨-, -, h'⟩ | ⟨-, h'⟩ := onOutput_cases s shown p taken <;> rw [h']
  · exact h s
  · exact .refl s

theorem keepWaiting_silent (s : State) (shown : Bool) : Silent s (s.keepWaiting shown) :=
  onOutput_silent fun u => goto_silent u _

theorem lostArbitration_silent (s : State) (shown : Bool) : Silent s (s.lostArbitration shown) := by
  unfold State.lostArbitration
  split
  · exact raise_silent s _
  · exact .refl s

theorem outputFalse_silent (s : State) : Silent s s.outputFalse := by
  unfold State.outputFalse
  split <;> exact .of_eq rfl rfl rfl

/-! ### What an instruction emits -/

/-- The port accesses a message stands for: a byte written to CMD, ADDR or CTRLA (30_encoding.md R85, R88, R90). -/
@[simp] def messageAccesses : Message → List PortAccess
  | .cmd v => [.write .cmd v]
  | .addrB v => [.write .addr v]
  | .ctrlEntry v => [.write .ctrla v]
  | .ctrlExit v => [.write .ctrla v]
  | .req _ => []
  | .res _ _ => []
  | .status _ _ => []

/-- The results a message stands for: a code with its index, and the buffer of a READ (30_encoding.md R74). -/
@[simp] def messageDeliveries (s : State) : Message → List Delivery
  | .res code index => [{ code := code, index := index, buffer := if s.op = .read then some s.buf else none }]
  | .cmd _ => []
  | .addrB _ => []
  | .ctrlEntry _ => []
  | .ctrlExit _ => []
  | .req _ => []
  | .status _ _ => []

/-- A row of the decoder goes on and emits nothing (40_status_decoder.md R100). -/
theorem exec_status_silent {i : Instr} {q : Query} {b : Byte} (s : State) (h : encode i = .status q b) :
    ∃ t, exec i s = .next t ∧ Silent s t := by
  cases i with
  | busStateBusError => exact ⟨_, rfl, keepWaiting_silent s _⟩
  | busStateUnknown => exact ⟨_, rfl, keepWaiting_silent s _⟩
  | busStateIdle => exact ⟨_, rfl, onOutput_silent enterAddress_silent⟩
  | busStateOwner => exact ⟨_, rfl, keepWaiting_silent s _⟩
  | busStateBusy => exact ⟨_, rfl, keepWaiting_silent s _⟩
  | readInterruptFlag => exact ⟨_, rfl, onOutput_silent fun u => goto_silent u _⟩
  | writeInterruptFlag => exact ⟨_, rfl, onOutput_silent fun u => goto_silent u _⟩
  | clockHeld => exact ⟨_, rfl, onOutput_silent proceed_silent⟩
  | ackStateNack => exact ⟨_, rfl, onOutput_silent fun u => raise_silent u _⟩
  | ackStateAck => exact ⟨_, rfl, onOutput_silent fun u => goto_silent u _⟩
  | arbitrationLostAliased => exact ⟨_, rfl, lostArbitration_silent s _⟩
  | arbitrationLostSeparate => exact ⟨_, rfl, lostArbitration_silent s _⟩
  | _ => nomatch h

/-- A write of CMD, ADDR or CTRLA with a handover that emits nothing. -/
theorem portWrite_returnTo_emits (s : State) (r : PortReg) (v : Byte) (p : Pos) {next : State → State}
    (h : ∀ u, Silent u (next u)) : Emits s ((s.portWrite r v).returnTo p next) [.write r v] [] :=
  (portWrite_emits s r v).trans_silent (returnTo_silent h)

/-- An instruction other than a request emits what its message stands for. -/
theorem exec_emits_message {i : Instr} {s t : State} (hi : i.format ≠ .req) (he : exec i s = .next t) :
    Emits s t (messageAccesses (encode i)) (messageDeliveries s (encode i)) := by
  have hstatus : ∀ {q b}, encode i = .status q b → Silent s t := fun h => by
    obtain ⟨u, hu, hs⟩ := exec_status_silent s h
    cases hu.symm.trans he
    exact hs
  cases i with
  | configure => exact absurd rfl hi
  | write => exact absurd rfl hi
  | read => exact absurd rfl hi
  | resOk => cases he; exact finish_emits s _
  | resNack => cases he; exact finish_emits s _
  | resPartialTransmit => cases he; exact finish_emits s _
  | resArbitrationLost => cases he; exact finish_emits s _
  | respondAck => cases he; exact portWrite_returnTo_emits s _ _ _ fun u => goto_silent u _
  | respondNack => cases he; exact portWrite_returnTo_emits s _ _ _ fun u => goto_silent u _
  | recvNext => cases he; exact portWrite_returnTo_emits s _ _ _ afterRecvNext_silent
  | stop => cases he; exact portWrite_returnTo_emits s _ _ _ afterStop_silent
  | repStart => cases he
  | addrWrite => cases he; exact portWrite_returnTo_emits s _ _ _ afterSendAddr_silent
  | addrRead => cases he; exact portWrite_returnTo_emits s _ _ _ afterSendAddr_silent
  | enSet => cases he; exact portWrite_returnTo_emits s _ _ _ fun u => goto_silent u _
  | enRestore => cases he; exact (portWrite_emits s _ _).trans_silent (afterRestore_silent _)
  | _ => exact hstatus rfl

/-! ### What a request emits -/

theorem canAccept_iff (s : State) : s.canAccept = true ↔ s.phase = .idle ∧ s.op = .none := by
  simp [State.canAccept]

theorem ownedBy_configure_iff (p : Pos) : p.ownedBy .configure = true ↔ p = .hold ∨ p = .baud ∨ p = .forceIdle := by
  cases p <;> simp [Pos.ownedBy]

theorem ownedBy_write_iff (p : Pos) :
    p.ownedBy .write = true ↔ p = .enSave ∨ p = .waitIdle ∨ p = .waitWif ∨ p = .putByte ∨ p = .arbCheck := by
  cases p <;> simp [Pos.ownedBy]

theorem ownedBy_read_iff (p : Pos) :
    p.ownedBy .read = true ↔ p = .enSave ∨ p = .waitIdle ∨ p = .pollRead ∨ p = .readData ∨ p = .quiesce := by
  cases p <;> simp [Pos.ownedBy]

@[simp] theorem ownedBy_none (p : Pos) : p.ownedBy .none = false := by cases p <;> rfl

/-- No request makes an access of its own at the request interface. -/
@[simp] theorem ownedBy_idle (o : Op) : Pos.ownedBy .idle o = false := by cases o <;> rfl

/-- No request makes an access of its own at a completion. -/
@[simp] theorem ownedBy_complete (r : TxResult) (o : Op) : Pos.ownedBy (.complete r) o = false := by cases o <;> rfl

/-- The request in progress is a request, of the operation's kind. -/
theorem requestInProgress_cases {s : State} {i : Instr} (h : s.requestInProgress = some i) :
    (s.op = .configure ∧ i = .configure) ∨ (s.op = .write ∧ i = .write s.addr s.data) ∨
      (s.op = .read ∧ i = .read s.addr s.buf) := by
  unfold State.requestInProgress at h
  split at h <;> cases h
  next hop => exact .inl ⟨hop, rfl⟩
  next hop => exact .inr (.inl ⟨hop, rfl⟩)
  next hop => exact .inr (.inr ⟨hop, rfl⟩)

theorem requestInProgress_format {s : State} {i : Instr} (h : s.requestInProgress = some i) : i.format = .req := by
  obtain ⟨-, rfl⟩ | ⟨-, rfl⟩ | ⟨-, rfl⟩ := requestInProgress_cases h <;> rfl

/-- All a request can do when it is executed: it is accepted (42_transactions.md R150), it makes the one access of its
pseudocode that stands at the position, or it changes nothing, where no access of it stands. -/
inductive RequestEffect (i : Instr) (s t : State) : Prop
  | accepted (free : s.canAccept = true) (emits : Silent s t)
  | access {a : PortAccess} (emits : Emits s t [a] []) (own : s.pos.ownedBy s.op = true) (ok : allowed s a)
  | waits (away : s.pos.ownedBy s.op = true → s.requestInProgress ≠ some i) (same : t = s)

/-- An access at a position of the request's own, with what follows it silently. -/
theorem RequestEffect.performed {i : Instr} {s u t : State} {a : PortAccess} {p : Pos} {o : Op}
    (emits : Emits s u [a] []) (rest : Silent u t) (hop : s.op = o) (hp : s.pos = p) (own : p.ownedBy o = true)
    (ok : allowed s a) : RequestEffect i s t :=
  .access (emits.trans_silent rest) (by rw [hp, hop]; exact own) ok

theorem execConfigure_effect {s t : State} (he : execConfigure s = .next t) : RequestEffect .configure s t := by
  unfold execConfigure at he
  split at he
  next hfree => cases he; exact .accepted hfree (.of_eq rfl rfl rfl)
  next =>
    split at he
    next hop =>
      split at he <;> cases he
      next hp =>
        exact .performed (portWrite_emits s .hold s.cfg.hold) (goto_silent _ _) hop hp rfl ⟨hop, hp, rfl⟩
      next hp =>
        exact .performed (portWrite_emits s .baud s.cfg.baud) (goto_silent _ _) hop hp rfl ⟨hop, hp, rfl⟩
      next hp =>
        exact .performed (portWrite_emits s .status _) (goto_silent _ _) hop hp rfl ⟨hop, hp, rfl⟩
      next => exact .waits (by simp_all [ownedBy_configure_iff]) rfl
    next hop => cases he; exact .waits (fun _ h => by simpa [hop] using requestInProgress_cases h) rfl

theorem execWrite_effect {s t : State} {a : Byte} {d : List Byte} (he : execWrite a d s = .next t) :
    RequestEffect (.write a d) s t := by
  unfold execWrite at he
  split at he
  next hfree => cases he; exact .accepted hfree (.of_eq rfl rfl rfl)
  next =>
    split at he
    next hop =>
      split at he
      next hp => cases he; exact .performed (enSave_emits s) (.refl _) hop hp rfl ⟨.inl hop, hp⟩
      next hp =>
        cases he
        exact .performed (snapStatus_emits s) (goto_silent _ _) hop hp rfl (.inl ⟨.inl hop, hp⟩)
      next hp =>
        cases he
        exact .performed (snapStatus_emits s) (goto_silent _ _) hop hp rfl (.inr (.inl ⟨hop, .inl hp⟩))
      next hp =>
        split at he <;> cases he
        next b hb =>
          exact .performed (portWrite_emits s .data b) (goto_silent _ _) hop hp rfl ⟨hop, hp, hb⟩
      next hp =>
        cases he
        exact .performed (snapStatus_emits s) (goto_silent _ _) hop hp rfl (.inr (.inl ⟨hop, .inr hp⟩))
      next => cases he; exact .waits (by simp_all [ownedBy_write_iff]) rfl
    next hop => cases he; exact .waits (fun _ h => by simpa [hop] using requestInProgress_cases h) rfl

theorem execRead_effect {s t : State} {a : Byte} {b : List Byte} (he : execRead a b s = .next t) :
    RequestEffect (.read a b) s t := by
  unfold execRead at he
  split at he
  next hfree => cases he; exact .accepted hfree (.of_eq rfl rfl rfl)
  next =>
    split at he
    next hop =>
      split at he
      next hp => cases he; exact .performed (enSave_emits s) (.refl _) hop hp rfl ⟨.inr hop, hp⟩
      next hp =>
        cases he
        exact .performed (snapStatus_emits s) (goto_silent _ _) hop hp rfl (.inl ⟨.inr hop, hp⟩)
      next hp =>
        cases he
        exact .performed (snapStatus_emits s) (goto_silent _ _) hop hp rfl (.inr (.inr ⟨hop, .inl hp⟩))
      next hp =>
        split at he <;> cases he
        exact .performed (captureData_emits s) (.refl _) hop hp rfl ⟨hop, hp⟩
      next hp =>
        cases he
        exact .performed (quiesceRead_emits s) (.refl _) hop hp rfl (.inr (.inr ⟨hop, .inr hp⟩))
      next => cases he; exact .waits (by simp_all [ownedBy_read_iff]) rfl
    next hop => cases he; exact .waits (fun _ h => by simpa [hop] using requestInProgress_cases h) rfl

theorem exec_request_effect {i : Instr} {s t : State} (hi : i.format = .req) (he : exec i s = .next t) :
    RequestEffect i s t := by
  cases i with
  | configure => exact execConfigure_effect (exec_configure s ▸ he)
  | write a d => exact execWrite_effect (exec_write a d s ▸ he)
  | read a b => exact execRead_effect (exec_read a b s ▸ he)
  | _ => nomatch hi

/-- A request read from the request interface makes no access (42_transactions.md R150). -/
theorem exec_request_idle {i : Instr} {s t : State} (hi : i.format = .req) (hp : s.pos = .idle)
    (he : exec i s = .next t) : Silent s t := by
  cases exec_request_effect hi he with
  | accepted _ emits => exact emits
  | access _ own => simp [hp] at own
  | waits _ same => exact same ▸ .refl s

/-- The request in progress makes exactly one access at a position of its own. -/
theorem exec_request_own {i : Instr} {s t : State} (hown : s.pos.ownedBy s.op = true)
    (hi : s.requestInProgress = some i) (he : exec i s = .next t) : ∃ a, allowed s a ∧ Emits s t [a] [] := by
  cases exec_request_effect (requestInProgress_format hi) he with
  | accepted free => simp [((canAccept_iff s).mp free).2] at hown
  | access emits _ ok => exact ⟨_, ok, emits⟩
  | waits away => exact absurd hi (away hown)

/-! ### The tests of a snapshot, and the fetch -/

/-- The tests of a snapshot emit nothing (00_scope.md R6; log 9). -/
theorem settle_silent {n : Nat} {s t : State} (h : settle n s = .next t) : Silent s t := by
  induction n generalizing s with
  | zero => cases h; exact .refl _
  | succ n ih =>
    cases hq : s.pos.query with
    | none =>
      cases (settle_rest (n + 1) s hq).symm.trans h
      exact .refl _
    | some q =>
      rw [settle_test n s q hq] at h
      cases hd : decode s.cfg (.status q s.snap) with
      | error e =>
        simp only [hd] at h
        exact (outputFalse_silent s).trans_silent (ih h)
      | ok i =>
        obtain ⟨u, hu, hs⟩ := exec_status_silent s (encode_of_decode hd)
        simp only [hd, hu] at h
        exact hs.trans_silent (ih h)

/-- When the fetch gives an instruction: a message that decodes to it, or an access of the request in progress. -/
theorem fetch_instr_iff (s : State) (i : Instr) :
    s.fetch = .instr i ↔
      (∃ m, s.message = some m ∧ decode s.cfg m = .ok i) ∨
        (s.message = none ∧ s.pos.ownedBy s.op = true ∧ s.requestInProgress = some i) := by
  unfold State.fetch
  cases hm : s.message with
  | some m =>
    cases hd : decode s.cfg m with
    | ok j => simp [hd]
    | error e =>
      have hne : s.undecoded e ≠ .instr i := by
        unfold State.undecoded
        repeat' split
        all_goals nofun
      simpa [hd] using hne
  | none =>
    by_cases hp : s.pos = .idle
    · simp [hp]
    · by_cases hown : s.pos.ownedBy s.op = true
      · cases hr : s.requestInProgress <;> simp [hp, hown]
      · simp [hp, hown]

/-- Nothing is fetched only at the request interface. -/
theorem pos_of_fetch_nothing {s : State} (h : s.fetch = .nothing) : s.pos = .idle := by
  unfold State.fetch State.undecoded at h
  repeat' split at h
  all_goals simp_all

/-- A false output is fetched only at a test. -/
theorem query_of_fetch_notShown {s : State} (h : s.fetch = .notShown) : s.pos.query.isSome = true := by
  unfold State.fetch State.undecoded at h
  repeat' split at h
  all_goals simp_all

/-- At the request interface with no request presented nothing is fetched. -/
theorem fetch_idle_empty {s : State} (hp : s.pos = .idle) (hr : s.requests = []) : s.fetch = .nothing := by
  simp [State.fetch, State.message, hp, hr]

theorem stepRunning_instr {s : State} {i : Instr} (h : s.fetch = .instr i) :
    stepRunning s = thenSettle (exec i s) := by
  simp [stepRunning, h]

theorem stepRunning_nothing {s : State} (h : s.fetch = .nothing) : stepRunning s = .next s := by
  simp [stepRunning, h]

/-- What a step outside reset goes through when it has a next state. -/
theorem stepRunning_cases {s t : State} (h : stepRunning s = .next t) :
    (∃ i u, s.fetch = .instr i ∧ exec i s = .next u ∧ settle maxTests u = .next t) ∨
      (s.fetch = .nothing ∧ t = s) ∨ (s.fetch = .notShown ∧ settle maxTests s.outputFalse = .next t) := by
  cases hf : s.fetch with
  | instr i =>
    rw [stepRunning_instr hf] at h
    cases he : exec i s with
    | next u => exact .inl ⟨i, u, rfl, he, by simpa [he] using h⟩
    | fault f => simp [he] at h
    | refused r => simp [he] at h
  | nothing =>
    cases (stepRunning_nothing hf).symm.trans h
    exact .inr (.inl ⟨rfl, rfl⟩)
  | notShown => exact .inr (.inr ⟨rfl, by simpa [stepRunning, hf] using h⟩)
  | badRequest e => simp [stepRunning, hf] at h
  | offPath => simp [stepRunning, hf] at h

/-! ### The step -/

/-- The message at a position: a request at the request interface, the output a test asks for, the result of a completion,
and at the other positions one write the spec allows there. -/
theorem message_cases {s : State} {m : Message} (h : s.message = some m) :
    (s.pos = .idle ∧ ∃ r, m = .req r) ∨
    (∃ q, s.pos.query = some q ∧ m = .status q s.snap) ∨
    (∃ r, s.pos = .complete r ∧ m = encodeResult r) ∨
    (s.pos ≠ .idle ∧ (∀ r, s.pos ≠ .complete r) ∧ m.format ≠ .req ∧
      ∃ a, allowed s a ∧ messageAccesses m = [a] ∧ messageDeliveries s m = []) := by
  unfold State.message at h
  split at h
  case h_1 hp =>
    obtain ⟨r, -, rfl⟩ := Option.map_eq_some_iff.mp h
    exact .inl ⟨hp, r, rfl⟩
  case h_8 r hp => cases h; exact .inr (.inr (.inl ⟨r, hp, rfl⟩))
  case h_9 =>
    obtain ⟨q, hq, rfl⟩ := Option.map_eq_some_iff.mp h
    exact .inr (.inl ⟨q, hq, rfl⟩)
  -- The six positions that write CTRLA, ADDR or CMD.
  all_goals
    rename_i hp
    cases h
    simp [hp, Message.format, allowed, enableByte]

/-- All a step outside reset can do on the block's interfaces (00_scope.md R6, 10_state.md R24): it looks at the request
interface, completes the request with its one result, makes the one port access of its position, or makes tests only, which
is for states that rest at a test. -/
inductive StepEffect (s t : State) : Prop
  | looks (idle : s.pos = .idle) (emits : Silent s t)
  | completes (r : TxResult) (complete : s.pos = .complete r) (emits : Emits s t [] [s.delivery r])
  | access (a : PortAccess) (notIdle : s.pos ≠ .idle) (notComplete : ∀ r, s.pos ≠ .complete r) (ok : allowed s a)
      (emits : Emits s t [a] [])
  | tests (test : s.pos.query.isSome = true) (emits : Silent s t)

/-- The effect of a message's instruction. -/
theorem exec_message_effect {s u : State} {m : Message} {i : Instr} (hm : s.message = some m)
    (hd : decode s.cfg m = .ok i) (he : exec i s = .next u) : StepEffect s u := by
  have henc := encode_of_decode hd
  have hfmt : i.format = m.format := henc ▸ (encode_format i).symm
  have hemits : m.format ≠ .req → Emits s u (messageAccesses m) (messageDeliveries s m) := fun hreq =>
    henc ▸ exec_emits_message (hfmt ▸ hreq) he
  obtain ⟨hp, r, rfl⟩ | ⟨q, hq, rfl⟩ | ⟨r, hp, rfl⟩ | ⟨hidle, hcomplete, hreq, a, ok, ha, hdel⟩ := message_cases hm
  · exact .looks hp (exec_request_idle hfmt hp he)
  · exact .tests (by simp [hq]) (hemits nofun)
  · exact .completes r hp (hemits nofun)
  · exact .access a hidle hcomplete ok (ha ▸ hdel ▸ hemits hreq)

/-- The tests that follow add nothing to an effect. -/
theorem StepEffect.trans_silent {s t u : State} (h : StepEffect s t) (h' : Silent t u) : StepEffect s u := by
  cases h with
  | looks idle emits => exact .looks idle (emits.trans_silent h')
  | completes r complete emits => exact .completes r complete (emits.trans_silent h')
  | access a notIdle notComplete ok emits => exact .access a notIdle notComplete ok (emits.trans_silent h')
  | tests test emits => exact .tests test (emits.trans_silent h')

/-- Every step outside reset, from every state, has one of the four effects. -/
theorem stepRunning_effect {s t : State} (h : stepRunning s = .next t) : StepEffect s t := by
  obtain ⟨i, u, hf, he, hs⟩ | ⟨hf, rfl⟩ | ⟨hf, hs⟩ := stepRunning_cases h
  · refine StepEffect.trans_silent ?_ (settle_silent hs)
    obtain ⟨m, hm, hd⟩ | ⟨-, hown, hi⟩ := (fetch_instr_iff s i).mp hf
    · exact exec_message_effect hm hd he
    · obtain ⟨a, ok, emits⟩ := exec_request_own hown hi he
      exact .access a (fun hp => by simp [hp] at hown) (fun r hp => by simp [hp] at hown) ok emits
  · exact .looks (pos_of_fetch_nothing hf) (.refl t)
  · exact .tests (query_of_fetch_notShown hf) ((outputFalse_silent s).trans_silent (settle_silent hs))

/-- Under the invariant the block rests at no test (log 9). -/
theorem query_of_posOk {s : State} (h : posOk s) : s.pos.query = none := by
  unfold posOk at h
  cases hp : s.pos <;> simp [hp] at h ⊢

/-! ### The default layout -/

/-- The default layout of R12 is legal, whatever the free parameters are. -/
theorem default_wf : Config.default.wf = true := by
  have hlen : 0 < Config.default.maxLen := Nat.succ_pos _
  have hoff : Config.default.offsets = [0, 3, 4, 5, 6, 7, 8] := rfl
  have hpos : Config.default.flagPositions = [7, 6, 5, 4, 2] := rfl
  have hbus : Config.default.posBusState = 0 := rfl
  simp [Config.wf, hlen, hoff, hpos, hbus]

/-! ### The obligations -/

/-- Settles O47: a reset keeps the parameters, and so does each of the four effects of a step. -/
theorem stepKeepsTheParameters : Obligations.StepKeepsTheParameters := by
  unfold Obligations.StepKeepsTheParameters
  intro s t h
  cases hr : s.resetIn with
  | true =>
    rw [step_reset s hr] at h
    cases h
    exact applyReset_cfg s
  | false =>
    rw [step_running s hr] at h
    cases stepRunning_effect h with
    | looks _ emits => exact emits.cfg
    | completes _ _ emits => exact emits.cfg
    | access _ _ _ _ emits => exact emits.cfg
    | tests _ emits => exact emits.cfg

/-- Settles O48: the effects of a step, of which the invariant rules out the last, a step of tests only. -/
theorem stepMakesOneAccessOrCompletes : Obligations.StepMakesOneAccessOrCompletes := by
  unfold Obligations.StepMakesOneAccessOrCompletes
  intro s t hinv hr h
  rw [step_running s hr] at h
  cases stepRunning_effect h with
  | looks idle emits => exact .inl ⟨idle, by simpa using emits.trace, by simpa using emits.delivered⟩
  | completes r complete emits =>
    exact .inr (.inl ⟨⟨r, complete⟩, by simpa using emits.trace, s.delivery r, emits.delivered⟩)
  | access a notIdle notComplete _ emits =>
    exact .inr (.inr ⟨notIdle, notComplete, by simpa using emits.delivered, a, emits.trace⟩)
  | tests test => simp [query_of_posOk hinv.position] at test

/-- Settles O31: the two cases of the statement are exactly where the fetch gives the instruction. -/
theorem stepRunsTheDecodedInstruction : Obligations.StepRunsTheDecodedInstruction := by
  unfold Obligations.StepRunsTheDecodedInstruction
  intro s i hr h
  rw [step_running s hr]
  exact stepRunning_instr ((fetch_instr_iff s i).mpr h)

/-- Settles O32: nothing is fetched, so the step keeps the state. -/
theorem idleBlockWaits : Obligations.IdleBlockWaits := by
  unfold Obligations.IdleBlockWaits
  intro s hready hempty
  rw [step_running s hready.noReset]
  exact stepRunning_nothing (fetch_idle_empty hready.pos hempty)

/-- Settles O44: the default layout is legal, the port holds a byte for each register, the counters are 0. -/
theorem invariantHoldsAtReset : Obligations.InvariantHoldsAtReset := by
  unfold Obligations.InvariantHoldsAtReset
  have hlen : 0 < Config.default.maxLen := Nat.succ_pos _
  exact {
    layout := default_wf
    canonical := memory_reset_wf
    registers := fun r => by
      have hread := memory_read_afterReset Config.default 0 r
      exact Option.isSome_iff_exists.mpr ⟨_, hread⟩
    lenInRange := hlen
    kInRange := hlen
    qInRange := Nat.zero_le _
    dataLength := fun _ => rfl
    bufLength := fun _ => rfl
    position := ⟨rfl, rfl⟩ }

end Sys2Proof.Proofs
end

