-- ==== Sys2Proof/Proofs/State.lean ====
section
/-! PROOFS of 10_state.md: the invariant of the block and its consequences, the accesses it makes, what a reset leaves, and
the registers that do not survive a request. One lemma says what a step does at each position the block can rest at
(`stepRunning_of_onPath`): `advance` gives its next state as a function. The invariant and the comparison of two runs are
then read off `advance`, position by position. -/

namespace Sys2Proof.Proofs

open Sys2Proof.Machine Sys2Proof.Safety

/-! ### The tests of a snapshot, as functions of the byte -/

/-- What `WAIT_IDLE` does with the snapshot it read (41_bus_primitives.md R124). -/
def afterTestIdle (s : State) : State :=
  if busState s.cfg s.snap = .ok .idle then s.enterAddress else s.goto .waitIdle

/-- What a byte of a write does on each verdict of `CLASSIFY` (42_transactions.md R163 to R165). -/
def classified (s : State) : Verdict → State
  | .proceed => s.proceed
  | .nack => s.raise s.nackError
  | .arbLost => s.raise .arbitrationLost

/-- What `WAIT_WIF` does with the snapshot it read (41_bus_primitives.md R126, R128). -/
def afterTestWif (s : State) : State :=
  if wif s.cfg s.snap then classified s (classify s.cfg s.snap) else s.goto .waitWif

/-- What `ARB_CHECK` does with the snapshot it read (41_bus_primitives.md R135). -/
def afterTestArbStop (s : State) : State :=
  if arbitrationLost s.cfg s.snap then s.raise .arbitrationLost else s.goto (.enRestore .ok)

/-- The second test of a read's poll: DATA is read, or the poll goes on (42_transactions.md R173). -/
def afterTestRif (s : State) : State := if rif s.cfg s.snap then s.goto .readData else s.goto .pollRead

/-- What a read's poll does with the snapshot it read (42_transactions.md R173). -/
def afterTestRead (s : State) : State :=
  if arbitrationLost s.cfg s.snap then s.raise .arbitrationLost else afterTestRif s

@[simp] theorem settle_raise (n : Nat) (s : State) (e : TxError) : settle n (s.raise e) = .next (s.raise e) :=
  settle_rest n _ rfl

/-- PROCEED leads to no test. -/
@[simp] theorem query_proceed (s : State) : s.proceed.pos.query = none := by
  obtain ⟨-, -, h⟩ | ⟨-, -, h⟩ | ⟨-, -, h⟩ | ⟨-, -, h⟩ := proceed_cases s <;> rw [h] <;> rfl

theorem settle_testIdle (n : Nat) {s : State} (hp : s.pos = .testIdle) :
    settle (n + 1) s = .next (afterTestIdle s) := by
  have hwait := settle_rest n (s.goto .waitIdle) rfl
  have hidle := settle_rest n s.enterAddress rfl
  rw [settle_test n s .busState (by rw [hp]; rfl)]
  cases hb : busState s.cfg s.snap with
  | busError =>
    simp [decode, decodeStatus, exec, execBusStateBusError, State.keepWaiting, State.onOutput, afterTestIdle, hb, hp, hwait]
  | ok b =>
    cases b <;>
      simp [decode, decodeStatus, exec, execBusStateUnknown, execBusStateIdle, execBusStateOwner, execBusStateBusy,
        State.keepWaiting, State.onOutput, afterTestIdle, hb, hp, hwait, hidle]

/-- The row of `arbitration_lost` under either value of `P_ARB_ALIAS` (40_status_decoder.md R107). -/
theorem exec_arbitrationLost (s : State) (b : Byte) :
    exec (if s.cfg.arbAlias then .arbitrationLostAliased b else .arbitrationLostSeparate b) s =
      .next (s.lostArbitration (arbitrationLost s.cfg b)) := by
  cases h : s.cfg.arbAlias <;> simp [exec, execArbitrationLostAliased, execArbitrationLostSeparate, h]

/-- The three tests of arbitration loss: a loss is raised, a false output goes on. -/
theorem settle_testArbitration (n : Nat) {s : State}
    (hp : s.pos = .testArb ∨ s.pos = .testArbStop ∨ s.pos = .testArbRead) :
    settle (n + 1) s =
      if arbitrationLost s.cfg s.snap then .next (s.raise .arbitrationLost) else settle n s.outputFalse := by
  have hq : s.pos.query = some .arbitrationLost := by rcases hp with hp | hp | hp <;> rw [hp] <;> rfl
  rw [settle_test n s _ hq]
  cases hl : arbitrationLost s.cfg s.snap with
  | false => simp [decode, decodeStatus, hl]
  | true => simp [decode, decodeStatus, hl, exec_arbitrationLost, State.lostArbitration, hp]

theorem settle_testHold (n : Nat) {s : State} (hp : s.pos = .testHold) :
    settle (n + 1) s = .next (if Machine.clockHeld s.cfg s.snap then s.proceed else s.raise .arbitrationLost) := by
  rw [settle_test n s .clockHeld (by rw [hp]; rfl)]
  cases hb : Machine.clockHeld s.cfg s.snap <;>
    simp [decode, decodeStatus, exec, execClockHeld, State.onOutput, State.outputFalse, hb, hp, settle_rest]

/-- The machine's three tests are `CLASSIFY` (41_bus_primitives.md R128). -/
theorem settle_testAck (n : Nat) {s : State} (hp : s.pos = .testAck) :
    settle (n + 3) s = .next (classified s (classify s.cfg s.snap)) := by
  rw [settle_test (n + 2) s .ackState (by rw [hp]; rfl)]
  cases ha : ackState s.cfg s.snap with
  | nack =>
    simp [decode, decodeStatus, exec, execAckStateNack, State.onOutput, ha, hp, classify, classified]
  | ack =>
    have harb := settle_testArbitration (n + 1) (s := s.goto .testArb) (.inl rfl)
    have hhold := settle_testHold n (s := s.goto .testHold) rfl
    have hfalse : (s.goto .testArb).outputFalse = s.goto .testHold := rfl
    simp only [decode, decodeStatus, ha, exec, execAckStateAck, State.onOutput, hp, beq_self_eq_true, and_self, if_true]
    rw [harb, hfalse, hhold]
    cases hl : arbitrationLost s.cfg s.snap <;> cases hc : Machine.clockHeld s.cfg s.snap <;>
      simp [classify, ha, hl, hc, classified]

/-- Where a verdict leads does not depend on the test position it was reached at. -/
@[simp] theorem classified_goto (s : State) (p : Pos) (v : Verdict) : classified (s.goto p) v = classified s v := by
  cases v <;> simp [classified]

theorem settle_testWif (n : Nat) {s : State} (hp : s.pos = .testWif) :
    settle (n + 4) s = .next (afterTestWif s) := by
  rw [settle_test (n + 3) s .writeInterruptFlag (by rw [hp]; rfl)]
  have hack := settle_testAck n (s := s.goto .testAck) rfl
  cases hb : wif s.cfg s.snap with
  | false =>
    have hwait := settle_rest (n + 3) (s.goto .waitWif) rfl
    simp [decode, decodeStatus, State.outputFalse, afterTestWif, hb, hp, hwait]
  | true =>
    simp only [decode, decodeStatus, exec, execWriteInterruptFlag, State.onOutput, afterTestWif, hb, hp, and_self, if_true]
    rw [hack, goto_cfg, goto_snap, classified_goto]

theorem settle_testArbStop (n : Nat) {s : State} (hp : s.pos = .testArbStop) :
    settle (n + 1) s = .next (afterTestArbStop s) := by
  rw [settle_testArbitration n (.inr (.inl hp))]
  have hexit := settle_rest n (s.goto (.enRestore .ok)) rfl
  cases hl : arbitrationLost s.cfg s.snap <;> simp [afterTestArbStop, State.outputFalse, hl, hp, hexit]

theorem settle_testRif (n : Nat) {s : State} (hp : s.pos = .testRif) :
    settle (n + 1) s = .next (afterTestRif s) := by
  rw [settle_test n s .readInterruptFlag (by rw [hp]; rfl)]
  have hdata := settle_rest n (s.goto .readData) rfl
  have hpoll := settle_rest n (s.goto .pollRead) rfl
  cases hb : rif s.cfg s.snap <;>
    simp [decode, decodeStatus, exec, execReadInterruptFlag, State.onOutput, State.outputFalse, afterTestRif, hb, hp, hdata,
      hpoll]

theorem settle_testArbRead (n : Nat) {s : State} (hp : s.pos = .testArbRead) :
    settle (n + 2) s = .next (afterTestRead s) := by
  have hrif : settle (n + 1) (s.goto .testRif) = .next (afterTestRif s) := settle_testRif n rfl
  have hfalse : s.outputFalse = s.goto .testRif := by simp [State.outputFalse, hp]
  rw [settle_testArbitration (n + 1) (.inr (.inr hp)), hfalse, hrif]
  cases hl : arbitrationLost s.cfg s.snap <;> simp [afterTestRead, hl]

@[simp] theorem query_afterSendAddr (s : State) : s.afterSendAddr.pos.query = none := by
  obtain ⟨-, -, h⟩ | ⟨-, -, h⟩ | ⟨-, h⟩ := afterSendAddr_cases s <;> rw [h] <;> rfl

@[simp] theorem query_afterRecvNext (s : State) : s.afterRecvNext.pos.query = none := by
  obtain ⟨-, h⟩ | ⟨-, h⟩ := afterRecvNext_cases s <;> rw [h] <;> rfl

@[simp] theorem query_quiesceOrExit (s : State) : s.quiesceOrExit.pos.query = none := by
  obtain ⟨-, h⟩ | ⟨-, h⟩ := quiesceOrExit_cases s <;> rw [h] <;> rfl

@[simp] theorem query_afterStop (s : State) : s.afterStop.pos.query = none := by
  obtain ⟨-, h⟩ | ⟨-, h⟩ := afterStop_cases s <;> rw [h]
  · exact query_quiesceOrExit _
  · rfl

/-! ### The next state at each position -/

/-- What follows at position `p`, where the operation goes through its pseudocode (42_transactions.md R152, R161, R170): the
access of the position with the tests and the moves after it, or the completion. It is the state itself at the positions
the block does not rest at, and at the request interface. -/
def advanceFrom (s : State) : Pos → State
  | .hold => (s.portWrite .hold s.cfg.hold).goto .baud
  | .baud => (s.portWrite .baud s.cfg.baud).goto .forceIdle
  | .forceIdle => (s.portWrite .status (forceIdleByte s.cfg)).goto (.complete .ok)
  | .enSave => s.enSave
  | .enSet => (s.portWrite .ctrla (enableByte s.savedEn)).goto .waitIdle
  | .waitIdle => afterTestIdle s.snapStatus
  | .sendAddr => (s.portWrite .addr (addrByte s.addr s.dir)).afterSendAddr
  | .waitWif => afterTestWif s.snapStatus
  | .putByte => (s.portWrite .data (s.data.getD s.k 0)).goto .waitWif
  | .issueStop => (s.portWrite .cmd 0x03).afterStop
  | .arbCheck => afterTestArbStop s.snapStatus
  | .pollRead => afterTestRead s.snapStatus
  | .readData => s.captureData
  | .respond => (s.portWrite .cmd 0x00).goto .recvNext
  | .recvNext => (s.portWrite .cmd 0x02).afterRecvNext
  | .quiesce => s.quiesceRead
  | .enRestore r => (s.portWrite .ctrla s.savedEn).goto (.complete r)
  | .complete r => s.finish r
  | _ => s

/-- The next state of an operation in progress. -/
def advance (s : State) : State := advanceFrom s s.pos

/-- What acceptance of a request leaves (42_transactions.md R150). -/
def accept (s : State) : Instr → State
  | .configure => s.acceptConfigure
  | .write a d => s.acceptWrite a d
  | .read a b => s.acceptRead a b
  | _ => s

/-! ### The states on the way -/

/-- The part of the invariant that every run from an idle block keeps, whatever the layout and the port hold: the position
belongs to the phase and the operation, and the operands in use have their lengths (42_transactions.md R150). -/
structure OnPath (s : State) : Prop where
  position : posOk s
  lenFits : transferring s → lengthFits s.cfg s.len = true
  dataLength : s.op = .write → s.data.length = s.len
  bufLength : s.op = .read → s.buf.length = s.len

/-- The rest of the invariant: the layout, the port's memory and the ranges of the counters. -/
structure Ranges (s : State) : Prop where
  layout : s.cfg.wf = true
  canonical : Memory.wf s.port
  registers : ∀ r, (Memory.read s.port (regAddr s.cfg r)).isSome = true
  lenInRange : s.len < s.cfg.maxLen
  kInRange : s.k < s.cfg.maxLen
  qInRange : s.q ≤ s.cfg.quiesceReads

theorem invariant_iff (s : State) : Invariant s ↔ OnPath s ∧ Ranges s := by
  constructor
  · intro h
    have hpos : 0 < s.cfg.maxLen := Nat.zero_lt_of_lt h.lenInRange
    have hfit := (lengthFits_iff s.cfg s.len hpos).mpr h.lenInRange
    exact ⟨{ h with lenFits := fun _ => hfit }, { h with }⟩
  · rintro ⟨h, h'⟩
    exact { h, h' with }

theorem OnPath.of_idle {s : State} (hpos : s.pos = .idle) (hop : s.op = .none) (hphase : s.phase = .idle) : OnPath s where
  position := by simp [posOk, hpos, hop, hphase]
  lenFits := by simp [transferring, hop]
  dataLength := by simp [hop]
  bufLength := by simp [hop]

/-- What the position says about the state, at a position that is known. -/
theorem posOk_at {s : State} {p : Pos} (h : posOk s) (hp : s.pos = p) : posOk (s.goto p) := goto_self s p hp ▸ h

/-- An exit belongs to a WRITE or a READ. -/
theorem transferring_of_exitOk {s : State} {r : TxResult} (h : exitOk s r) : transferring s := by
  cases r with
  | ok => exact h.elim (fun h => .inl h.1) (fun h => h.1)
  | err e =>
    cases e with
    | nack => exact .inl h.1
    | partialTransmit k => exact .inl h.1
    | arbitrationLost => exact h.1

/-- At an exit the phase is not IDLE yet. -/
theorem phase_of_exitOk {s : State} {r : TxResult} (h : exitOk s r) : s.phase ≠ .idle := by
  cases r with
  | ok => rcases h with ⟨-, hp, -⟩ | ⟨-, hp⟩ <;> simp [hp]
  | err e =>
    cases e with
    | nack => simp [h.2]
    | partialTransmit k => simp [h.2.1]
    | arbitrationLost => simp [h.2]

/-- What is below a length that fits, fits. -/
theorem lengthFits_of_lt {c : Config} {m n : Nat} (h : lengthFits c n = true) (hm : m < n) : lengthFits c m = true := by
  simp only [lengthFits, Bool.or_eq_true, beq_iff_eq, decide_eq_true_eq] at h ⊢
  omega

/-- The index of a result that is due fits P_MAX_LEN (30_encoding.md R74, 60_exceptions.md R192). -/
theorem resultIndex_fits {s : State} {r : TxResult} (h : OnPath s) (hp : s.pos = .complete r) :
    lengthFits s.cfg (resultIndex r) = true := by
  have hpos : exitOk s r ∨ (r = .ok ∧ s.op = .configure ∧ s.phase = .idle) := posOk_at h.position hp
  cases r with
  | ok => rfl
  | err e =>
    cases e with
    | nack => rfl
    | arbitrationLost => rfl
    | partialTransmit k =>
      obtain ⟨hop, -, hk⟩ : s.op = .write ∧ s.phase = .error ∧ k + 1 < s.len := hpos.resolve_right (by simp)
      exact lengthFits_of_lt (h.lenFits (.inl hop)) (Nat.lt_of_succ_lt hk)

/-! ### The fetch and the step at each position -/

/-- No message passes at an access of the request's own. -/
theorem message_of_ownedBy {s : State} (h : s.pos.ownedBy s.op = true) : s.message = none := by
  cases hp : s.pos <;> simp [State.message, hp] <;> simp [hp, Pos.ownedBy] at h

/-- At an access of its own, the request in progress is fetched. -/
theorem fetch_own {s : State} {i : Instr} (hown : s.pos.ownedBy s.op = true) (hi : s.requestInProgress = some i) :
    s.fetch = .instr i :=
  (fetch_instr_iff s i).mpr (.inr ⟨message_of_ownedBy hown, hown, hi⟩)

theorem fetch_configure {s : State} (hop : s.op = .configure) (hown : s.pos.ownedBy .configure = true) :
    s.fetch = .instr .configure :=
  fetch_own (hop ▸ hown) (by simp [State.requestInProgress, hop])

theorem fetch_write {s : State} (hop : s.op = .write) (hown : s.pos.ownedBy .write = true) :
    s.fetch = .instr (.write s.addr s.data) :=
  fetch_own (hop ▸ hown) (by simp [State.requestInProgress, hop])

theorem fetch_read {s : State} (hop : s.op = .read) (hown : s.pos.ownedBy .read = true) :
    s.fetch = .instr (.read s.addr s.buf) :=
  fetch_own (hop ▸ hown) (by simp [State.requestInProgress, hop])

/-- At a position with a message, the instruction it decodes to is fetched. -/
theorem fetch_message {s : State} {m : Message} {i : Instr} (hm : s.message = some m) (hd : decode s.cfg m = .ok i) :
    s.fetch = .instr i :=
  (fetch_instr_iff s i).mpr (.inl ⟨m, hm, hd⟩)

/-- A step that ends with its access. -/
theorem stepRunning_of_exec {s u : State} {i : Instr} (hf : s.fetch = .instr i) (he : exec i s = .next u)
    (hu : u.pos.query = none) : stepRunning s = .next u := by
  rw [stepRunning_instr hf, he, thenSettle_next, settle_rest _ _ hu]

/-- A step that goes on with the tests of the snapshot it read. -/
theorem stepRunning_of_tests {s u t : State} {i : Instr} (hf : s.fetch = .instr i) (he : exec i s = .next u)
    (hs : settle maxTests u = .next t) : stepRunning s = .next t := by
  rw [stepRunning_instr hf, he, thenSettle_next, hs]

theorem stepRunning_configure_own {s : State} (hop : s.op = .configure) (hown : s.pos.ownedBy .configure = true) :
    stepRunning s = .next (advance s) := by
  have hf := fetch_configure hop hown
  obtain hp | hp | hp := (ownedBy_configure_iff _).mp hown <;> rw [advance, hp] <;>
    exact stepRunning_of_exec hf (by simp [exec, execConfigure, State.canAccept, hop, hp, advanceFrom]) rfl

theorem stepRunning_write_own {s : State} (h : OnPath s) (hop : s.op = .write) (hown : s.pos.ownedBy .write = true) :
    stepRunning s = .next (advance s) := by
  have hf := fetch_write hop hown
  have hexec : ∀ {u}, execWrite s.addr s.data s = .next u → exec (.write s.addr s.data) s = .next u :=
    (exec_write _ _ s).trans
  obtain hp | hp | hp | hp | hp := (ownedBy_write_iff _).mp hown <;> rw [advance, hp]
  · exact stepRunning_of_exec hf (hexec (by simp [execWrite, State.canAccept, hop, hp, advanceFrom])) rfl
  · exact stepRunning_of_tests (u := s.snapStatus.goto .testIdle) hf
      (hexec (by simp [execWrite, State.canAccept, hop, hp])) (settle_testIdle 3 rfl)
  · exact stepRunning_of_tests (u := s.snapStatus.goto .testWif) hf
      (hexec (by simp [execWrite, State.canAccept, hop, hp])) (settle_testWif 0 rfl)
  · obtain ⟨-, -, hk⟩ : _ ∧ _ ∧ s.k < s.len := posOk_at h.position hp
    have hlt : s.k < s.data.length := h.dataLength hop ▸ hk
    exact stepRunning_of_exec hf (hexec (by simp [execWrite, State.canAccept, hop, hp, hlt, advanceFrom])) rfl
  · exact stepRunning_of_tests (u := s.snapStatus.goto .testArbStop) hf
      (hexec (by simp [execWrite, State.canAccept, hop, hp])) (settle_testArbStop 3 rfl)

theorem stepRunning_read_own {s : State} (h : OnPath s) (hop : s.op = .read) (hown : s.pos.ownedBy .read = true) :
    stepRunning s = .next (advance s) := by
  have hf := fetch_read hop hown
  have hexec : ∀ {u}, execRead s.addr s.buf s = .next u → exec (.read s.addr s.buf) s = .next u :=
    (exec_read _ _ s).trans
  obtain hp | hp | hp | hp | hp := (ownedBy_read_iff _).mp hown <;> rw [advance, hp]
  · exact stepRunning_of_exec hf (hexec (by simp [execRead, State.canAccept, hop, hp, advanceFrom])) rfl
  · exact stepRunning_of_tests (u := s.snapStatus.goto .testIdle) hf
      (hexec (by simp [execRead, State.canAccept, hop, hp])) (settle_testIdle 3 rfl)
  · exact stepRunning_of_tests (u := s.snapStatus.goto .testArbRead) hf
      (hexec (by simp [execRead, State.canAccept, hop, hp])) (settle_testArbRead 2 rfl)
  · obtain ⟨-, -, hk⟩ : _ ∧ _ ∧ s.k < s.len := posOk_at h.position hp
    have hlt : s.k < s.buf.length := h.bufLength hop ▸ hk
    exact stepRunning_of_exec hf (hexec (by simp [execRead, State.canAccept, hop, hp, hlt, advanceFrom])) rfl
  · exact stepRunning_of_exec hf (hexec (by simp [execRead, State.canAccept, hop, hp, advanceFrom]))
      (query_quiesceOrExit _)

/-- A write at its position hands over to what follows it. -/
theorem portWrite_returnTo {s : State} {p : Pos} (hp : s.pos = p) (r : PortReg) (v : Byte) (next : State → State) :
    (s.portWrite r v).returnTo p next = next (s.portWrite r v) := returnTo_at _ _ _ hp

/-- `EN_SET` writes the byte it was decoded from (30_encoding.md R90). -/
theorem stepRunning_enSet {s : State} (hp : s.pos = .enSet) : stepRunning s = .next (advance s) := by
  have hm : s.message = some (.ctrlEntry (enableByte s.savedEn)) := by simp [State.message, hp]
  have hd : decode s.cfg (.ctrlEntry (enableByte s.savedEn)) = .ok (.enSet (upper7 (enableByte s.savedEn))) := by
    simp [decode]
  have hv : upper7 (enableByte s.savedEn) ++ (1 : BitVec 1) = enableByte s.savedEn := enableByte_parts _
  rw [advance, hp]
  refine stepRunning_of_exec (fetch_message hm hd) ?_ rfl
  rw [exec, execEnSet, hv, portWrite_returnTo hp, advanceFrom]

/-- `SEND_ADDR` writes the byte it was decoded from (30_encoding.md R88). -/
theorem exec_decodeAddrByte (v : Byte) (s : State) :
    exec (decodeAddrByte v) s = .next ((s.portWrite .addr v).returnTo .sendAddr State.afterSendAddr) := by
  have henc := encode_decodeAddrByte v
  cases hi : decodeAddrByte v with
  | addrWrite a =>
    rw [hi] at henc
    cases henc
    rfl
  | addrRead a =>
    rw [hi] at henc
    cases henc
    rfl
  | _ => rw [hi] at henc; cases henc

theorem stepRunning_sendAddr {s : State} (hp : s.pos = .sendAddr) : stepRunning s = .next (advance s) := by
  have hm : s.message = some (.addrB (addrByte s.addr s.dir)) := by simp [State.message, hp]
  rw [advance, hp]
  refine stepRunning_of_exec (fetch_message hm rfl) ?_ (query_afterSendAddr _)
  rw [exec_decodeAddrByte, portWrite_returnTo hp, advanceFrom]

/-- The three commands a transaction issues (30_encoding.md R85). -/
theorem stepRunning_command {s : State} (hp : s.pos = .respond ∨ s.pos = .recvNext ∨ s.pos = .issueStop) :
    stepRunning s = .next (advance s) := by
  obtain hp | hp | hp := hp <;> rw [advance, hp]
  · have hm : s.message = some (.cmd 0x00) := by simp [State.message, hp]
    exact stepRunning_of_exec (i := .respondAck) (fetch_message hm rfl)
      (congrArg Host.Outcome.next (portWrite_returnTo hp _ _ _)) rfl
  · have hm : s.message = some (.cmd 0x02) := by simp [State.message, hp]
    exact stepRunning_of_exec (i := .recvNext) (fetch_message hm rfl)
      (congrArg Host.Outcome.next (portWrite_returnTo hp _ _ _)) (query_afterRecvNext _)
  · have hm : s.message = some (.cmd 0x03) := by simp [State.message, hp]
    exact stepRunning_of_exec (i := .stop) (fetch_message hm rfl)
      (congrArg Host.Outcome.next (portWrite_returnTo hp _ _ _)) (query_afterStop _)

theorem stepRunning_enRestore {s : State} {r : TxResult} (hp : s.pos = .enRestore r) :
    stepRunning s = .next (advance s) := by
  have hm : s.message = some (.ctrlExit s.savedEn) := by simp [State.message, hp]
  rw [advance, hp]
  refine stepRunning_of_exec (i := .enRestore s.savedEn) (fetch_message hm rfl) ?_ rfl
  simp [exec, execEnRestore, State.afterRestore, hp, advanceFrom]

/-- The row of a result that fits is `finish` of that result (30_encoding.md R74, 42_transactions.md R151). -/
theorem decode_encodeResult {c : Config} {r : TxResult} (h : lengthFits c (resultIndex r) = true) :
    ∃ i, decode c (encodeResult r) = .ok i ∧ ∀ s, exec i s = .next (s.finish r) := by
  cases r with
  | ok => exact ⟨.resOk, rfl, fun _ => rfl⟩
  | err e =>
    cases e with
    | nack => exact ⟨.resNack, rfl, fun _ => rfl⟩
    | arbitrationLost => exact ⟨.resArbitrationLost, rfl, fun _ => rfl⟩
    | partialTransmit k => exact ⟨.resPartialTransmit k, if_pos h, fun _ => rfl⟩

theorem stepRunning_complete {s : State} {r : TxResult} (h : OnPath s) (hp : s.pos = .complete r) :
    stepRunning s = .next (advance s) := by
  have hm : s.message = some (encodeResult r) := by simp [State.message, hp]
  obtain ⟨i, hd, he⟩ := decode_encodeResult (resultIndex_fits h hp)
  rw [advance, hp]
  exact stepRunning_of_exec (fetch_message hm hd) (he s) rfl

/-- The step of an operation in progress, at every position: it goes on as `advance` says, and has no other outcome. -/
theorem stepRunning_advance {s : State} (h : OnPath s) (hne : s.pos ≠ .idle) : stepRunning s = .next (advance s) := by
  have hat : ∀ {p}, s.pos = p → posOk (s.goto p) := posOk_at h.position
  have hown : ∀ {p o}, s.pos = p → p.ownedBy o = true → s.pos.ownedBy o = true := fun hp ho => hp ▸ ho
  have hshared : ∀ {p}, s.pos = p → p.ownedBy .write = true → p.ownedBy .read = true → transferring s →
      stepRunning s = .next (advance s) := fun hp hw hr ht =>
    ht.elim (fun hop => stepRunning_write_own h hop (hown hp hw)) (fun hop => stepRunning_read_own h hop (hown hp hr))
  cases hp : s.pos with
  | idle => exact absurd hp hne
  | hold => exact stepRunning_configure_own (hat hp).1 (hown hp rfl)
  | baud => exact stepRunning_configure_own (hat hp).1 (hown hp rfl)
  | forceIdle => exact stepRunning_configure_own (hat hp).1 (hown hp rfl)
  | enSave => exact hshared hp rfl rfl (hat hp).1
  | enSet => exact stepRunning_enSet hp
  | waitIdle => exact hshared hp rfl rfl (hat hp).1
  | sendAddr => exact stepRunning_sendAddr hp
  | waitWif => exact stepRunning_write_own h (hat hp).1 (hown hp rfl)
  | putByte => exact stepRunning_write_own h (hat hp).1 (hown hp rfl)
  | issueStop => exact stepRunning_command (.inr (.inr hp))
  | arbCheck => exact stepRunning_write_own h (hat hp).1 (hown hp rfl)
  | pollRead => exact stepRunning_read_own h (hat hp).1 (hown hp rfl)
  | readData => exact stepRunning_read_own h (hat hp).1 (hown hp rfl)
  | respond => exact stepRunning_command (.inl hp)
  | recvNext => exact stepRunning_command (.inr (.inl hp))
  | quiesce => exact stepRunning_read_own h (hat hp).1 (hown hp rfl)
  | enRestore r => exact stepRunning_enRestore hp
  | complete r => exact stepRunning_complete h hp
  | _ => exact (hat hp).elim

/-! ### The step at the request interface -/

theorem lengthFits_of_decodeOperands {c : Config} {make : Byte → List Byte → Instr} {o : Option Operands} {i : Instr}
    (hd : decodeOperands c make o = .ok i) : ∃ a l, i = make a l ∧ lengthFits c l.length = true := by
  unfold decodeOperands at hd
  split at hd
  next => cases hd
  next o =>
    split at hd
    next => cases hd
    next hfit =>
      split at hd <;> cases hd
      next hlen => exact ⟨o.addr, o.bytes, rfl, by simpa [hlen] using hfit⟩

/-- A request that decodes is one of the three, with a length that fits (30_encoding.md R71, R72). -/
theorem decodeRequest_ok_cases {c : Config} {r : Request} {i : Instr} (hd : decodeRequest c r = .ok i) :
    i = .configure ∨ (∃ a l, i = .write a l ∧ lengthFits c l.length = true) ∨
      (∃ a l, i = .read a l ∧ lengthFits c l.length = true) := by
  unfold decodeRequest at hd
  split at hd
  next => split at hd <;> cases hd; exact .inl rfl
  next =>
    split at hd
    next => exact .inr (.inl (lengthFits_of_decodeOperands hd))
    next =>
      split at hd
      next => exact .inr (.inr (lengthFits_of_decodeOperands hd))
      next => cases hd

/-- At the request interface the request presented first is the message (42_transactions.md R150). -/
theorem message_idle {s : State} {r : Request} {rest : List Request} (hp : s.pos = .idle) (hr : s.requests = r :: rest) :
    s.message = some (.req r) := by
  simp [State.message, hp, hr]

/-- An idle block accepts what is presented (42_transactions.md R150). -/
theorem stepRunning_accept {s : State} {r : Request} {rest : List Request} {i : Instr} (h : posOk s) (hp : s.pos = .idle)
    (hr : s.requests = r :: rest) (hd : decodeRequest s.cfg r = .ok i) : stepRunning s = .next (accept s i) := by
  have hf : s.fetch = .instr i := fetch_message (message_idle hp hr) hd
  have hidle : s.op = .none ∧ s.phase = .idle := posOk_at h hp
  have hfree := (canAccept_iff s).mpr hidle.symm
  obtain rfl | ⟨a, l, rfl, -⟩ | ⟨a, l, rfl, -⟩ := decodeRequest_ok_cases hd
  · exact stepRunning_of_exec hf (if_pos hfree) rfl
  · exact stepRunning_of_exec hf (if_pos hfree) rfl
  · exact stepRunning_of_exec hf (if_pos hfree) rfl

/-- A request that does not decode is refused (30_encoding.md R73; log 13). -/
theorem stepRunning_refuse {s : State} {r : Request} {rest : List Request} {e : DecodeError} (hp : s.pos = .idle)
    (hr : s.requests = r :: rest) (hd : decodeRequest s.cfg r = .error e) : stepRunning s = .refused (refusalOf e) := by
  have hd' : decode s.cfg (.req r) = .error e := hd
  have hf : s.fetch = .badRequest e := by simp [State.fetch, message_idle hp hr, hd', State.undecoded, hp]
  simp [stepRunning, hf]

/-- Every outcome of a step outside reset, from a state on the way. -/
inductive StepOutcome (s : State) : Prop
  | advances (away : s.pos ≠ .idle) (step : stepRunning s = .next (advance s))
  | waits (idle : s.pos = .idle) (empty : s.requests = []) (step : stepRunning s = .next s)
  | accepts {r : Request} {rest : List Request} {i : Instr} (idle : s.pos = .idle) (presented : s.requests = r :: rest)
      (decodes : decodeRequest s.cfg r = .ok i) (step : stepRunning s = .next (accept s i))
  | refuses {r : Request} {rest : List Request} {e : DecodeError} (idle : s.pos = .idle)
      (presented : s.requests = r :: rest) (fails : decodeRequest s.cfg r = .error e)
      (step : stepRunning s = .refused (refusalOf e))

theorem stepRunning_of_onPath {s : State} (h : OnPath s) : StepOutcome s := by
  by_cases hp : s.pos = .idle
  · cases hr : s.requests with
    | nil => exact .waits hp hr (stepRunning_nothing (fetch_idle_empty hp hr))
    | cons r rest =>
      cases hd : decodeRequest s.cfg r with
      | ok i => exact .accepts hp hr hd (stepRunning_accept h.position hp hr hd)
      | error e => exact .refuses hp hr hd (stepRunning_refuse hp hr hd)
  · exact .advances hp (stepRunning_advance h hp)

/-! ### What an operation in progress keeps -/

/-- From `s` to `t` the block kept what the invariant says beyond the position: the parameters, the operands and their
number, the operation or none, a byte for every register, and the counters below their bounds. -/
structure Keeps (s t : State) : Prop where
  cfg : t.cfg = s.cfg
  len : t.len = s.len
  data : t.data = s.data
  bufLength : t.buf.length = s.buf.length
  op : t.op = s.op ∨ t.op = .none
  canonical : Memory.wf s.port → Memory.wf t.port
  registers : ∀ a, (Memory.read s.port a).isSome = true → (Memory.read t.port a).isSome = true
  kBound : ∀ m, s.len < m → s.k < m → t.k < m
  qBound : s.q ≤ s.cfg.quiesceReads → t.q ≤ s.cfg.quiesceReads

/-- What is kept, and a position that fits. -/
structure Advances (s t : State) : Prop extends Keeps s t where
  position : posOk t

theorem Keeps.refl (s : State) : Keeps s s where
  cfg := rfl
  len := rfl
  data := rfl
  bufLength := rfl
  op := .inl rfl
  canonical := id
  registers := fun _ => id
  kBound := fun _ _ => id
  qBound := id

theorem Keeps.trans {s t u : State} (h : Keeps s t) (h' : Keeps t u) : Keeps s u where
  cfg := h'.cfg.trans h.cfg
  len := h'.len.trans h.len
  data := h'.data.trans h.data
  bufLength := h'.bufLength.trans h.bufLength
  op := h'.op.elim (fun ho => ho ▸ h.op) .inr
  canonical := h'.canonical ∘ h.canonical
  registers := fun a => h'.registers a ∘ h.registers a
  kBound := fun m hl hk => h'.kBound m (h.len ▸ hl) (h.kBound m hl hk)
  qBound := fun hq => h.cfg ▸ h'.qBound (h.cfg ▸ h.qBound hq)

theorem Keeps.advances {s t u : State} (h : Keeps s t) (h' : Advances t u) : Advances s u :=
  { h.trans h'.toKeeps with position := h'.position }

theorem portWrite_keeps (s : State) (r : PortReg) (v : Byte) : Keeps s (s.portWrite r v) :=
  { Keeps.refl s with
    canonical := portWrite_wf s r v
    registers := fun a => memory_isSome_write s.port _ a v }

theorem snapStatus_keeps (s : State) : Keeps s s.snapStatus := { Keeps.refl s with }

/-- A move of the operation: the phase, the counters and the position. -/
theorem Advances.move {s : State} {ph : Phase} {k q : Nat} {p : Pos} (hk : k = s.k ∨ k ≤ s.len)
    (hq : q = s.q ∨ q ≤ s.cfg.quiesceReads) (hp : posOk { s with phase := ph, k := k, q := q, pos := p }) :
    Advances s { s with phase := ph, k := k, q := q, pos := p } :=
  { Keeps.refl s with
    kBound := fun _ hl hs => hk.elim (fun h => h ▸ hs) (fun h => Nat.lt_of_le_of_lt h hl)
    qBound := fun hs => hq.elim (fun h => h ▸ hs) id
    position := hp }

/-- A move of the phase and the position only. -/
theorem Advances.turn {s : State} {ph : Phase} {p : Pos} (hp : posOk { s with phase := ph, pos := p }) :
    Advances s { s with phase := ph, pos := p } := .move (.inl rfl) (.inl rfl) hp

theorem raise_advances {s : State} {e : TxError} (h : exitOk (s.raise e) (.err e)) : Advances s (s.raise e) := .turn h

theorem enterStop_advances {s : State} (ht : transferring s) : Advances s s.enterStop := .turn ⟨ht, rfl⟩

theorem afterSendAddr_advances {s : State} (ht : transferring s) (hphase : s.phase = .address) :
    Advances s s.afterSendAddr := by
  obtain ⟨-, -, h⟩ | ⟨hop, hlen, h⟩ | ⟨hop, h⟩ := afterSendAddr_cases s <;> rw [h]
  · exact enterStop_advances ht
  · exact .move (.inr (Nat.zero_le _)) (.inl rfl) ⟨hop, rfl, Nat.pos_of_ne_zero hlen⟩
  · exact .turn ⟨ht.resolve_right hop, .inl hphase⟩

/-- A byte of a write waits for its classification: the address byte, or a data byte. -/
def sending (s : State) : Prop := s.op = .write ∧ (s.phase = .address ∨ (s.phase = .write ∧ s.k < s.len))

theorem proceed_advances {s : State} (h : sending s) : Advances s s.proceed := by
  obtain ⟨hop, hphase⟩ := h
  obtain ⟨hph, hlen, h⟩ | ⟨hph, hlen, h⟩ | ⟨hph, hk, h⟩ | ⟨hph, hk, h⟩ := proceed_cases s <;> rw [h]
  · exact .turn (.inl ⟨hop, hph, hlen⟩)
  · exact .move (.inr (Nat.zero_le _)) (.inl rfl) ⟨hop, rfl, Nat.pos_of_ne_zero hlen⟩
  · exact .move (.inr (Nat.le_of_lt hk)) (.inl rfl) ⟨hop, (hphase.resolve_left hph).1, hk⟩
  · exact enterStop_advances (.inl hop)

theorem nackError_advances {s : State} (hop : s.op = .write) : Advances s (s.raise s.nackError) := by
  obtain ⟨-, hk, h⟩ | ⟨-, h⟩ := nackError_cases s <;> rw [h]
  · exact raise_advances ⟨hop, rfl, hk⟩
  · exact raise_advances ⟨hop, rfl⟩

theorem classified_advances {s : State} (h : sending s) (v : Verdict) : Advances s (classified s v) := by
  cases v with
  | proceed => exact proceed_advances h
  | nack => exact nackError_advances h.1
  | arbLost => exact raise_advances ⟨.inl h.1, rfl⟩

theorem afterTestIdle_advances {s : State} (ht : transferring s) (hphase : s.phase = .busAcquire) :
    Advances s (afterTestIdle s) := by
  unfold afterTestIdle
  split
  · exact .turn ⟨ht, rfl⟩
  · exact .turn ⟨ht, hphase⟩

theorem afterTestWif_advances {s : State} (h : sending s) : Advances s (afterTestWif s) := by
  unfold afterTestWif
  split
  · exact classified_advances h _
  · exact .turn h

theorem afterTestArbStop_advances {s : State} (hop : s.op = .write) (hphase : s.phase = .stop) :
    Advances s (afterTestArbStop s) := by
  unfold afterTestArbStop
  split
  · exact raise_advances ⟨.inl hop, rfl⟩
  · exact .turn (.inr ⟨.inl hop, hphase⟩)

/-- Byte `k` of a read is being received. -/
def receiving (s : State) : Prop := s.op = .read ∧ s.phase = .read ∧ s.k < s.len

theorem afterTestRead_advances {s : State} (h : receiving s) : Advances s (afterTestRead s) := by
  unfold afterTestRead afterTestRif
  split
  · exact raise_advances ⟨.inr h.1, rfl⟩
  · split
    · exact .turn h
    · exact .turn h

theorem afterRecvNext_advances {s : State} (h : receiving s) : Advances s s.afterRecvNext := by
  obtain ⟨hop, hphase, -⟩ := h
  obtain ⟨hk, h⟩ | ⟨-, h⟩ := afterRecvNext_cases s <;> rw [h]
  · exact .move (.inr (Nat.le_of_lt hk)) (.inl rfl) ⟨hop, hphase, hk⟩
  · exact enterStop_advances (.inr hop)

theorem quiesceOrExit_advances {s : State} (hop : s.op = .read) (hphase : s.phase = .stop) :
    Advances s s.quiesceOrExit := by
  obtain ⟨hq, h⟩ | ⟨-, h⟩ := quiesceOrExit_cases s <;> rw [h]
  · exact .turn ⟨hop, hphase, hq⟩
  · exact .turn (.inr ⟨.inr hop, hphase⟩)

theorem setQ_keeps {s : State} {q : Nat} (hq : q ≤ s.cfg.quiesceReads) : Keeps s { s with q := q } :=
  { Keeps.refl s with qBound := fun _ => hq }

theorem afterStop_advances {s : State} (ht : transferring s) (hphase : s.phase = .stop) : Advances s s.afterStop := by
  obtain ⟨hop, h⟩ | ⟨hop, h⟩ := afterStop_cases s <;> rw [h]
  · exact (setQ_keeps (Nat.zero_le _)).advances (quiesceOrExit_advances hop hphase)
  · exact .turn ⟨ht.resolve_right hop, hphase⟩

theorem quiesceRead_advances {s : State} (hop : s.op = .read) (hphase : s.phase = .stop)
    (hq : s.q < s.cfg.quiesceReads) : Advances s s.quiesceRead :=
  ((snapStatus_keeps s).trans (setQ_keeps hq)).advances (quiesceOrExit_advances hop hphase)

theorem enSave_advances {s : State} (ht : transferring s) : Advances s s.enSave :=
  { Keeps.refl s with position := ⟨ht, rfl⟩ }

theorem captureData_advances {s : State} (h : receiving s) : Advances s s.captureData :=
  { Keeps.refl s with
    bufLength := List.length_set
    position := h }

theorem finish_advances (s : State) (r : TxResult) : Advances s (s.finish r) :=
  { Keeps.refl s with
    op := .inr rfl
    position := ⟨rfl, rfl⟩ }

/-- An operation in progress keeps what the invariant says. -/
theorem advance_advances {s : State} (h : posOk s) : Advances s (advance s) := by
  have hat : ∀ {p}, s.pos = p → posOk (s.goto p) := posOk_at h
  unfold advance
  cases hp : s.pos with
  | idle => exact { Keeps.refl s with position := h }
  | hold => exact (portWrite_keeps s _ _).advances (.turn (hat hp))
  | baud => exact (portWrite_keeps s _ _).advances (.turn (hat hp))
  | forceIdle => exact (portWrite_keeps s _ _).advances (.turn (.inr ⟨rfl, hat hp⟩))
  | enSave => exact enSave_advances (hat hp).1
  | enSet => exact (portWrite_keeps s _ _).advances (.turn (hat hp))
  | waitIdle => exact (snapStatus_keeps s).advances (afterTestIdle_advances (hat hp).1 (hat hp).2)
  | sendAddr => exact (portWrite_keeps s _ _).advances (afterSendAddr_advances (hat hp).1 (hat hp).2)
  | waitWif => exact (snapStatus_keeps s).advances (afterTestWif_advances (hat hp))
  | putByte => exact (portWrite_keeps s _ _).advances (.turn ⟨(hat hp).1, .inr (hat hp).2⟩)
  | issueStop => exact (portWrite_keeps s _ _).advances (afterStop_advances (hat hp).1 (hat hp).2)
  | arbCheck => exact (snapStatus_keeps s).advances (afterTestArbStop_advances (hat hp).1 (hat hp).2)
  | pollRead => exact (snapStatus_keeps s).advances (afterTestRead_advances (hat hp))
  | readData => exact captureData_advances (hat hp)
  | respond => exact (portWrite_keeps s _ _).advances (.turn (hat hp))
  | recvNext => exact (portWrite_keeps s _ _).advances (afterRecvNext_advances (hat hp))
  | quiesce =>
    obtain ⟨hop, hphase, hq⟩ := hat hp
    exact quiesceRead_advances hop hphase hq
  | enRestore r => exact (portWrite_keeps s _ _).advances (.turn (.inl (hat hp)))
  | complete r => exact finish_advances s r
  | _ => exact (hat hp).elim

/-! ### The invariant over a step -/

theorem OnPath.of_advances {s t : State} (h : OnPath s) (a : Advances s t) : OnPath t := by
  have hop : ∀ {o}, o ≠ .none → t.op = o → s.op = o := fun hne ho =>
    (a.op.resolve_right (ho ▸ hne)).symm.trans ho
  exact {
    position := a.position
    lenFits := fun ht => by
      rw [a.cfg, a.len]
      exact h.lenFits (ht.imp (hop (by simp)) (hop (by simp)))
    dataLength := fun ho => by rw [a.data, a.len, h.dataLength (hop (by simp) ho)]
    bufLength := fun ho => by rw [a.bufLength, a.len, h.bufLength (hop (by simp) ho)] }

theorem Ranges.of_keeps {s t : State} (h : Ranges s) (a : Keeps s t) : Ranges t where
  layout := a.cfg ▸ h.layout
  canonical := a.canonical h.canonical
  registers := fun r => a.registers _ (a.cfg ▸ h.registers r)
  lenInRange := by rw [a.cfg, a.len]; exact h.lenInRange
  kInRange := a.cfg ▸ a.kBound _ h.lenInRange h.kInRange
  qInRange := a.cfg ▸ a.qBound h.qInRange

/-- Acceptance stands at the first access of the request, with operands that fit (42_transactions.md R150). -/
theorem accept_onPath {s : State} {r : Request} {i : Instr} (h : OnPath s) (hp : s.pos = .idle)
    (hd : decodeRequest s.cfg r = .ok i) : OnPath (accept s i) := by
  obtain ⟨-, hphase⟩ : s.op = .none ∧ s.phase = .idle := posOk_at h.position hp
  obtain rfl | ⟨a, l, rfl, hfit⟩ | ⟨a, l, rfl, hfit⟩ := decodeRequest_ok_cases hd
  · exact ⟨⟨rfl, hphase⟩, fun ht => by simp [transferring, accept] at ht, nofun, nofun⟩
  · exact ⟨⟨.inl rfl, hphase⟩, fun _ => hfit, fun _ => rfl, nofun⟩
  · exact ⟨⟨.inr rfl, hphase⟩, fun _ => hfit, nofun, fun _ => rfl⟩

theorem accept_ranges {s : State} {r : Request} {i : Instr} (h : Ranges s) (hd : decodeRequest s.cfg r = .ok i) :
    Ranges (accept s i) := by
  have hlen : ∀ n, lengthFits s.cfg n = true → n < s.cfg.maxLen := fun n =>
    (lengthFits_iff s.cfg n (Nat.zero_lt_of_lt h.lenInRange)).mp
  obtain rfl | ⟨a, l, rfl, hfit⟩ | ⟨a, l, rfl, hfit⟩ := decodeRequest_ok_cases hd
  · exact { h with }
  · exact { h with lenInRange := hlen _ hfit }
  · exact { h with lenInRange := hlen _ hfit }

theorem applyReset_onPath (s : State) : OnPath s.applyReset := .of_idle rfl rfl rfl

theorem applyReset_ranges {s : State} (h : Ranges s) : Ranges s.applyReset where
  layout := h.layout
  canonical := memory_afterReset_wf _ _
  registers := fun r => Option.isSome_iff_exists.mpr ⟨_, memory_read_afterReset s.cfg (s.resets + 1) r⟩
  lenInRange := Nat.zero_lt_of_lt h.lenInRange
  kInRange := Nat.zero_lt_of_lt h.lenInRange
  qInRange := Nat.zero_le _

/-- Every step keeps a property that a reset, an acceptance and an advance keep. -/
theorem step_keeps {P : State → Prop} {s t : State} (h : OnPath s) (hs : P s) (hreset : P s.applyReset)
    (haccept : ∀ {r i}, s.pos = .idle → decodeRequest s.cfg r = .ok i → P (accept s i))
    (hadvance : P (advance s)) (hstep : step s = .next t) : P t := by
  cases hr : s.resetIn with
  | true =>
    rw [step_reset s hr] at hstep
    cases hstep
    exact hreset
  | false =>
    rw [step_running s hr] at hstep
    cases stepRunning_of_onPath h with
    | advances _ hnext => cases hnext.symm.trans hstep; exact hadvance
    | waits _ _ hnext => cases hnext.symm.trans hstep; exact hs
    | accepts idle _ decodes hnext => cases hnext.symm.trans hstep; exact haccept idle decodes
    | refuses _ _ _ hnext => cases hnext.symm.trans hstep

theorem step_onPath {s t : State} (h : OnPath s) (hstep : step s = .next t) : OnPath t :=
  step_keeps h h (applyReset_onPath s) (accept_onPath h) (h.of_advances (advance_advances h.position)) hstep

theorem step_ranges {s t : State} (h : OnPath s) (hr : Ranges s) (hstep : step s = .next t) : Ranges t :=
  step_keeps h hr (applyReset_ranges hr) (fun _ => accept_ranges hr)
    (hr.of_keeps (advance_advances h.position).toKeeps) hstep

/-! ### Two blocks that differ in stale registers only -/

/-- `t` is `s` up to the registers that the rest of the operation does not read before it writes them (10_state.md R22): the
operands belong to a WRITE or a READ, `saved_en` is read after `EN_SAVE`, `k` in the data phases, `q` in the quiescence
reads, and the snapshot by no position the block rests at. -/
structure Agree (s t : State) : Prop where
  cfg : t.cfg = s.cfg
  phase : t.phase = s.phase
  op : t.op = s.op
  pos : t.pos = s.pos
  port : t.port = s.port
  requests : t.requests = s.requests
  delivered : t.delivered = s.delivered
  trace : t.trace = s.trace
  answers : t.answers = s.answers
  draws : t.draws = s.draws
  resets : t.resets = s.resets
  resetIn : t.resetIn = s.resetIn
  addr : transferring s → t.addr = s.addr
  len : transferring s → t.len = s.len
  data : s.op = .write → t.data = s.data
  buf : s.op = .read → t.buf = s.buf
  savedEn : transferring s → s.phase ≠ .idle → t.savedEn = s.savedEn
  k : s.phase = .write ∨ s.phase = .read → t.k = s.k
  q : s.pos = .quiesce → t.q = s.q

section

variable {s t : State}

theorem Agree.answer (h : Agree s t) : t.answer = s.answer := answer_congr t s h.answers h.draws

/-- A branch on a condition the two states share. -/
theorem Agree.ite {c d : Prop} [Decidable c] [Decidable d] {s' t' : State} (hiff : d ↔ c) (hthen : c → Agree s t)
    (helse : ¬ c → Agree s' t') : Agree (if c then s else s') (if d then t else t') := by
  by_cases hc : c
  · rw [if_pos hc, if_pos (hiff.mpr hc)]
    exact hthen hc
  · rw [if_neg hc, if_neg (hc ∘ hiff.mp)]
    exact helse hc

theorem Agree.portWrite (h : Agree s t) (r : PortReg) {v v' : Byte} (hv : v' = v) :
    Agree (s.portWrite r v) (t.portWrite r v') :=
  { h with
    port := by simp [h.port, h.cfg, hv]
    trace := by simp [h.trace, hv] }

theorem Agree.snapStatus (h : Agree s t) : Agree s.snapStatus t.snapStatus :=
  { h with
    answers := congrArg List.tail h.answers
    draws := congrArg (· + 1) h.draws
    trace := by simp [h.trace, h.answer] }

/-- The same move on both sides, of counters that are equal where they will be read. -/
theorem Agree.move (h : Agree s t) {ph ph' : Phase} {k k' q q' : Nat} {p p' : Pos} (hphase : ph' = ph) (hpos : p' = p)
    (hidle : s.phase = .idle → ph = .idle) (hk : ph = .write ∨ ph = .read → k' = k) (hq : p = .quiesce → q' = q) :
    Agree { s with phase := ph, k := k, q := q, pos := p } { t with phase := ph', k := k', q := q', pos := p' } :=
  { h with
    phase := hphase
    pos := hpos
    savedEn := fun ht hne => h.savedEn ht (hne ∘ hidle)
    k := hk
    q := hq }

theorem Agree.goto (h : Agree s t) {p : Pos} (hp : p ≠ .quiesce) : Agree (s.goto p) (t.goto p) :=
  h.move h.phase rfl id h.k (fun hq => absurd hq hp)

theorem Agree.raise (h : Agree s t) {e e' : TxError} (he : e' = e) (hne : s.phase ≠ .idle) :
    Agree (s.raise e) (t.raise e') :=
  h.move rfl (by rw [he]) (fun hi => absurd hi hne) (by simp) (by simp)

theorem Agree.enterStop (h : Agree s t) (hne : s.phase ≠ .idle) : Agree s.enterStop t.enterStop :=
  h.move rfl rfl (fun hi => absurd hi hne) (by simp) (by simp)

theorem Agree.afterSendAddr (h : Agree s t) (ht : transferring s) (hne : s.phase ≠ .idle) :
    Agree s.afterSendAddr t.afterSendAddr := by
  unfold State.afterSendAddr
  refine .ite (by rw [h.op]) (fun _ => .ite (by rw [h.len ht]) (fun _ => h.enterStop hne) fun _ => ?_)
    fun _ => h.goto (by simp)
  exact h.move rfl rfl (fun hi => absurd hi hne) (fun _ => rfl) (by simp)

theorem Agree.proceed (h : Agree s t) (hs : sending s) : Agree s.proceed t.proceed := by
  obtain ⟨hop, hphase⟩ := hs
  have hne : s.phase ≠ .idle := by rcases hphase with hp | ⟨hp, -⟩ <;> simp [hp]
  have hlen := h.len (.inl hop)
  unfold State.proceed
  refine .ite (by rw [h.phase]) (fun _ => .ite (by rw [hlen]) (fun _ => h.goto (by simp)) fun _ => ?_) fun ha => ?_
  · exact h.move rfl rfl (fun hi => absurd hi hne) (fun _ => rfl) (by simp)
  · have hk : t.k = s.k := h.k (.inl (hphase.resolve_left ha).1)
    refine .ite (by rw [hk, hlen]) (fun _ => ?_) fun _ => h.enterStop hne
    exact h.move h.phase rfl id (fun _ => by rw [hk]) (by simp)

theorem Agree.nackError (h : Agree s t) (hs : sending s) : t.nackError = s.nackError := by
  obtain ⟨hop, ha | ⟨hw, -⟩⟩ := hs
  · simp [State.nackError, h.phase, ha]
  · simp [State.nackError, h.phase, hw, h.k (.inl hw), h.len (.inl hop)]

theorem Agree.classified (h : Agree s t) (hs : sending s) (v : Verdict) : Agree (classified s v) (classified t v) := by
  have hne : s.phase ≠ .idle := by rcases hs.2 with hp | ⟨hp, -⟩ <;> simp [hp]
  cases v with
  | proceed => exact h.proceed hs
  | nack => exact h.raise (h.nackError hs) hne
  | arbLost => exact h.raise rfl hne

theorem Agree.afterTestIdle (h : Agree s t) (hsnap : t.snap = s.snap) (hne : s.phase ≠ .idle) :
    Agree (afterTestIdle s) (afterTestIdle t) := by
  refine .ite (by rw [h.cfg, hsnap]) (fun _ => ?_) fun _ => h.goto (by simp)
  exact h.move rfl rfl (fun hi => absurd hi hne) (by simp) (by simp)

theorem Agree.afterTestWif (h : Agree s t) (hsnap : t.snap = s.snap) (hs : sending s) :
    Agree (afterTestWif s) (afterTestWif t) := by
  refine .ite (by rw [h.cfg, hsnap]) (fun _ => ?_) fun _ => h.goto (by simp)
  rw [h.cfg, hsnap]
  exact h.classified hs _

theorem Agree.afterTestArbStop (h : Agree s t) (hsnap : t.snap = s.snap) (hne : s.phase ≠ .idle) :
    Agree (afterTestArbStop s) (afterTestArbStop t) :=
  .ite (by rw [h.cfg, hsnap]) (fun _ => h.raise rfl hne) fun _ => h.goto (by simp)

theorem Agree.afterTestRead (h : Agree s t) (hsnap : t.snap = s.snap) (hne : s.phase ≠ .idle) :
    Agree (afterTestRead s) (afterTestRead t) :=
  .ite (by rw [h.cfg, hsnap]) (fun _ => h.raise rfl hne) fun _ =>
    .ite (by rw [h.cfg, hsnap]) (fun _ => h.goto (by simp)) fun _ => h.goto (by simp)

theorem Agree.afterRecvNext (h : Agree s t) (hs : receiving s) : Agree s.afterRecvNext t.afterRecvNext := by
  obtain ⟨hop, hphase, -⟩ := hs
  have hk : t.k = s.k := h.k (.inr hphase)
  refine .ite (by rw [hk, h.len (.inr hop)]) (fun _ => ?_) fun _ => h.enterStop (by simp [hphase])
  exact h.move h.phase rfl id (fun _ => by rw [hk]) (by simp)

theorem Agree.quiesceOrExit (h : Agree s t) (hq : t.q = s.q) : Agree s.quiesceOrExit t.quiesceOrExit :=
  .ite (by rw [h.cfg, hq]) (fun _ => h.move h.phase rfl id h.k fun _ => hq) fun _ => h.goto (by simp)

theorem Agree.setQ (h : Agree s t) {q q' : Nat} (hq : q' = q) : Agree { s with q := q } { t with q := q' } :=
  h.move h.phase h.pos id h.k fun _ => hq

theorem Agree.afterStop (h : Agree s t) : Agree s.afterStop t.afterStop :=
  .ite (by rw [h.op]) (fun _ => (h.setQ rfl).quiesceOrExit rfl) fun _ => h.goto (by simp)

theorem Agree.quiesceRead (h : Agree s t) (hp : s.pos = .quiesce) : Agree s.quiesceRead t.quiesceRead :=
  have hq : t.q + 1 = s.q + 1 := by rw [h.q hp]
  (h.snapStatus.setQ hq).quiesceOrExit hq

theorem Agree.enSave (h : Agree s t) : Agree s.enSave t.enSave :=
  { h with
    phase := rfl
    pos := rfl
    answers := congrArg List.tail h.answers
    draws := congrArg (· + 1) h.draws
    trace := by simp [h.trace, h.answer]
    savedEn := fun _ _ => h.answer
    k := by simp
    q := by simp }

theorem Agree.captureData (h : Agree s t) (hs : receiving s) : Agree s.captureData t.captureData :=
  { h with
    pos := rfl
    answers := congrArg List.tail h.answers
    draws := congrArg (· + 1) h.draws
    trace := by simp [h.trace, h.answer]
    buf := fun hop => by simp [h.buf hop, h.k (.inr hs.2.1), h.answer]
    q := by simp }

theorem Agree.delivery (h : Agree s t) (r : TxResult) : t.delivery r = s.delivery r := by
  by_cases hop : s.op = .read
  · simp [State.delivery, h.op, hop, h.buf hop]
  · simp [State.delivery, h.op, hop]

theorem Agree.finish (h : Agree s t) (r : TxResult) : Agree (s.finish r) (t.finish r) :=
  { h with
    phase := rfl
    op := rfl
    pos := rfl
    delivered := by simp [h.delivered, h.delivery]
    addr := by simp [transferring]
    len := by simp [transferring]
    data := by simp
    buf := by simp
    savedEn := by simp
    k := by simp
    q := by simp }

theorem Agree.dir (h : Agree s t) : t.dir = s.dir := by simp [State.dir, h.op]

/-- Two operations in progress that agree go on to states that agree. -/
theorem Agree.advance (h : Agree s t) (hs : posOk s) : Agree (advance s) (advance t) := by
  have hat : ∀ {p}, s.pos = p → posOk (s.goto p) := posOk_at hs
  have hsnap : t.snapStatus.snap = s.snapStatus.snap := h.answer
  unfold Proofs.advance
  rw [h.pos]
  cases hp : s.pos with
  | idle => exact h
  | hold => exact (h.portWrite _ (by rw [h.cfg])).goto (by simp)
  | baud => exact (h.portWrite _ (by rw [h.cfg])).goto (by simp)
  | forceIdle => exact (h.portWrite _ (by rw [h.cfg])).goto (by simp)
  | enSave => exact h.enSave
  | enSet =>
    obtain ⟨ht, hphase⟩ : transferring s ∧ s.phase = .busAcquire := hat hp
    exact (h.portWrite _ (by rw [h.savedEn ht (by simp [hphase])])).goto (by simp)
  | waitIdle =>
    obtain ⟨-, hphase⟩ : transferring s ∧ s.phase = .busAcquire := hat hp
    exact h.snapStatus.afterTestIdle hsnap (by simp [hphase])
  | sendAddr =>
    obtain ⟨ht, hphase⟩ : transferring s ∧ s.phase = .address := hat hp
    exact (h.portWrite _ (by rw [h.addr ht, h.dir])).afterSendAddr ht (by simp [hphase])
  | waitWif => exact h.snapStatus.afterTestWif hsnap (hat hp)
  | putByte =>
    obtain ⟨hop, hphase, -⟩ : s.op = .write ∧ s.phase = .write ∧ s.k < s.len := hat hp
    exact (h.portWrite _ (by rw [h.data hop, h.k (.inl hphase)])).goto (by simp)
  | issueStop => exact (h.portWrite _ rfl).afterStop
  | arbCheck =>
    obtain ⟨-, hphase⟩ : s.op = .write ∧ s.phase = .stop := hat hp
    exact h.snapStatus.afterTestArbStop hsnap (by simp [hphase])
  | pollRead =>
    obtain ⟨-, hphase, -⟩ : s.op = .read ∧ s.phase = .read ∧ s.k < s.len := hat hp
    exact h.snapStatus.afterTestRead hsnap (by simp [hphase])
  | readData => exact h.captureData (hat hp)
  | respond => exact (h.portWrite _ rfl).goto (by simp)
  | recvNext => exact (h.portWrite _ rfl).afterRecvNext (hat hp)
  | quiesce => exact h.quiesceRead hp
  | enRestore r =>
    have hexit : exitOk s r := hat hp
    exact (h.portWrite _ (h.savedEn (transferring_of_exitOk hexit) (phase_of_exitOk hexit))).goto (by simp)
  | complete r => exact h.finish r
  | _ => exact (hat hp).elim

/-- Two idle blocks that agree accept a request into states that agree: its operands are written (42_transactions.md
R150). -/
theorem Agree.accept (h : Agree s t) (hs : posOk s) (hp : s.pos = .idle) {r : Request} {i : Instr}
    (hd : decodeRequest s.cfg r = .ok i) : Agree (accept s i) (accept t i) := by
  obtain ⟨-, hphase⟩ : s.op = .none ∧ s.phase = .idle := posOk_at hs hp
  have hrequests : t.requests.tail = s.requests.tail := by rw [h.requests]
  obtain rfl | ⟨a, l, rfl, -⟩ | ⟨a, l, rfl, -⟩ := decodeRequest_ok_cases hd
  · exact { h with
      op := rfl, pos := rfl, requests := hrequests
      addr := by simp [transferring, Proofs.accept]
      len := by simp [transferring, Proofs.accept]
      data := by simp [Proofs.accept]
      buf := by simp [Proofs.accept]
      savedEn := by simp [Proofs.accept, hphase]
      q := by simp [Proofs.accept] }
  · exact { h with
      op := rfl, pos := rfl, requests := hrequests
      addr := fun _ => rfl
      len := fun _ => rfl
      data := fun _ => rfl
      buf := by simp [Proofs.accept]
      savedEn := by simp [Proofs.accept, hphase]
      q := by simp [Proofs.accept] }
  · exact { h with
      op := rfl, pos := rfl, requests := hrequests
      addr := fun _ => rfl
      len := fun _ => rfl
      data := by simp [Proofs.accept]
      buf := fun _ => rfl
      savedEn := by simp [Proofs.accept, hphase]
      q := by simp [Proofs.accept] }

theorem Agree.applyReset (h : Agree s t) : Agree s.applyReset t.applyReset where
  cfg := h.cfg
  phase := rfl
  op := rfl
  pos := rfl
  port := by simp [h.cfg, h.resets]
  requests := h.requests
  delivered := h.delivered
  trace := h.trace
  answers := h.answers
  draws := h.draws
  resets := congrArg (· + 1) h.resets
  resetIn := rfl
  addr := fun _ => rfl
  len := fun _ => rfl
  data := fun _ => rfl
  buf := fun _ => rfl
  savedEn := fun _ _ => rfl
  k := fun _ => rfl
  q := fun _ => rfl

/-- Two blocks that agree make steps that agree. -/
theorem Agree.step (h : Agree s t) (hs : OnPath s) (ht : OnPath t) {s' : State} (hstep : step s = .next s') :
    ∃ t', step t = .next t' ∧ Agree s' t' := by
  cases hr : s.resetIn with
  | true =>
    rw [step_reset s hr] at hstep
    cases hstep
    exact ⟨_, step_reset t (h.resetIn.trans hr), h.applyReset⟩
  | false =>
    rw [step_running s hr] at hstep
    rw [step_running t (h.resetIn.trans hr)]
    cases stepRunning_of_onPath hs with
    | advances away hnext =>
      cases hnext.symm.trans hstep
      exact ⟨_, stepRunning_advance ht (h.pos ▸ away), h.advance hs.position⟩
    | waits idle empty hnext =>
      cases hnext.symm.trans hstep
      exact ⟨t, stepRunning_nothing (fetch_idle_empty (h.pos.trans idle) (h.requests.trans empty)), h⟩
    | accepts idle presented decodes hnext =>
      cases hnext.symm.trans hstep
      exact ⟨_, stepRunning_accept ht.position (h.pos.trans idle) (h.requests.trans presented) (h.cfg ▸ decodes),
        h.accept hs.position idle decodes⟩
    | refuses _ _ _ hnext => cases hnext.symm.trans hstep

/-- Two blocks that agree make runs that agree, however long. -/
theorem Agree.run {n : Nat} {u : State} (h : Agree s t) (hs : OnPath s) (ht : OnPath t) (hrun : run n s = .next u) :
    ∃ v, run n t = .next v ∧ Agree u v := by
  induction n generalizing s t with
  | zero => cases hrun; exact ⟨t, rfl, h⟩
  | succ n ih =>
    rw [Safety.run] at hrun
    cases hstep : Machine.step s with
    | next s' =>
      obtain ⟨t', hstep', h'⟩ := h.step hs ht hstep
      rw [hstep] at hrun
      rw [Safety.run, hstep']
      exact ih h' (step_onPath hs hstep) (step_onPath ht hstep') hrun
    | fault f => simp [hstep] at hrun
    | refused r => simp [hstep] at hrun

end

/-- Idle blocks that differ in stale registers only agree. -/
theorem agree_of_sameButStale {s t : State} (hready : Ready s) (h : sameButStale s t) : Agree s t := by
  obtain ⟨hpos, hphase, hop, -⟩ := hready
  rw [h]
  exact {
    cfg := rfl, phase := rfl, op := rfl, pos := rfl, port := rfl, requests := rfl, delivered := rfl, trace := rfl
    answers := rfl, draws := rfl, resets := rfl, resetIn := rfl
    addr := by simp [transferring, hop]
    len := by simp [transferring, hop]
    data := by simp [hop]
    buf := by simp [hop]
    savedEn := by simp [hphase]
    k := by simp [hphase]
    q := by simp [hpos] }

/-! ### Which request makes an access, and why a request is refused -/

/-- An access at its position belongs to the operation of that position (10_state.md R26, R28, R32). -/
theorem madeBy_of_allowed {s : State} {a : PortAccess} (h : posOk s) (ok : allowed s a) : madeBy s a := by
  have hat : ∀ {p}, s.pos = p → posOk (s.goto p) := posOk_at h
  cases a with
  | read r v => trivial
  | write r v =>
    cases r with
    | hold => trivial
    | baud => trivial
    | status => trivial
    | data => trivial
    | addr => exact (hat ok.1).1
    | ctrla =>
      obtain ⟨hp, -⟩ | ⟨⟨r, hp⟩, -⟩ := ok
      · exact (hat hp).1
      · exact transferring_of_exitOk (hat hp : exitOk s r)
    | cmd =>
      obtain ⟨hp, -⟩ | ⟨hp, -⟩ | ⟨hp, hv⟩ := ok
      · exact ⟨.inr (hat hp).1, fun _ => (hat hp).1⟩
      · exact ⟨.inr (hat hp).1, fun _ => (hat hp).1⟩
      · exact ⟨(hat hp).1, fun hne => absurd hv hne⟩

/-- OP in 3..7 or a bit of 7:3 set: every header but the three (30_encoding.md R71, R73). -/
theorem reservedHeader_iff (v : Byte) :
    (3 ≤ (v &&& 0b00000111).toNat ∨ v &&& 0b11111000 ≠ 0) ↔
      v ≠ headerConfigure ∧ v ≠ headerWrite ∧ v ≠ headerRead := by
  revert v
  decide

theorem decodeOperands_error_ne {c : Config} {make : Byte → List Byte → Instr} {o : Option Operands} {e : DecodeError}
    (hd : decodeOperands c make o = .error e) : e ≠ .reservedHeader := by
  unfold decodeOperands at hd
  repeat' split at hd
  all_goals cases hd
  all_goals nofun

/-- A request fails with `reservedHeader` exactly for a header that is none of the three (30_encoding.md R73). -/
theorem decodeRequest_error_iff {c : Config} {r : Request} {e : DecodeError} (hd : decodeRequest c r = .error e) :
    e = .reservedHeader ↔ r.header ≠ headerConfigure ∧ r.header ≠ headerWrite ∧ r.header ≠ headerRead := by
  unfold decodeRequest at hd
  split at hd
  next hh =>
    split at hd <;> cases hd
    simp [hh]
  next h0 =>
    split at hd
    next hh => simp [hh, decodeOperands_error_ne hd]
    next h1 =>
      split at hd
      next hh => simp [hh, decodeOperands_error_ne hd]
      next h2 => cases hd; simp [h0, h1, h2]

theorem refusalOf_eq_notARequest_iff (e : DecodeError) : refusalOf e = .notARequest ↔ e = .reservedHeader := by
  cases e <;> simp [refusalOf]

theorem refusalOf_cases (e : DecodeError) : refusalOf e = .notARequest ∨ refusalOf e = .malformedRequest := by
  cases e <;> simp [refusalOf]

/-! ### The obligations -/

/-- Settles O45: what an operation in progress keeps (`advance_advances`), and an acceptance, and a reset. -/
theorem stepKeepsTheInvariant : Obligations.StepKeepsTheInvariant := by
  unfold Obligations.StepKeepsTheInvariant
  intro s t hinv hstep
  obtain ⟨hpath, hranges⟩ := (invariant_iff s).mp hinv
  exact (invariant_iff t).mpr ⟨step_onPath hpath hstep, step_ranges hpath hranges hstep⟩

/-- Settles O46: of the outcomes of a step only the refusal at the request interface is not a next state. -/
theorem noFaultUnderTheInvariant : Obligations.NoFaultUnderTheInvariant := by
  unfold Obligations.NoFaultUnderTheInvariant
  intro s hinv
  cases hr : s.resetIn with
  | true => simp [step_reset s hr]
  | false =>
    rw [step_running s hr]
    cases stepRunning_of_onPath ((invariant_iff s).mp hinv).1 with
    | advances _ hnext => simp [hnext]
    | waits _ _ hnext => simp [hnext]
    | accepts _ _ _ hnext => simp [hnext]
    | refuses idle presented fails hrefused =>
      rw [hrefused]
      refine ⟨nofun, fun r h => ?_⟩
      cases h
      refine ⟨idle, refusalOf_cases _, _, _, _, presented, fails, rfl, ?_⟩
      rw [refusalOf_eq_notARequest_iff, decodeRequest_error_iff fails, reservedHeader_iff]

/-- Settles O49: the one access of a step is allowed where it is made (`stepRunning_effect`), and under the invariant its
position fixes the operation. -/
theorem onlyAllowedAccesses : Obligations.OnlyAllowedAccesses := by
  unfold Obligations.OnlyAllowedAccesses
  intro s t hstep
  cases hr : s.resetIn with
  | true =>
    rw [step_reset s hr] at hstep
    cases hstep
    exact ⟨[], by simp, by simp⟩
  | false =>
    rw [step_running s hr] at hstep
    cases stepRunning_effect hstep with
    | looks _ emits => exact ⟨[], emits.trace, by simp⟩
    | completes _ _ emits => exact ⟨[], emits.trace, by simp⟩
    | tests _ emits => exact ⟨[], emits.trace, by simp⟩
    | access a _ _ ok emits =>
      refine ⟨[a], emits.trace, fun b hb => ?_⟩
      obtain rfl := List.mem_singleton.mp hb
      exact ⟨ok, fun hinv => madeBy_of_allowed hinv.position ok⟩

/-- Settles O53: the two blocks agree, and runs of blocks that agree do. -/
theorem staleRegistersHaveNoInfluence : Obligations.StaleRegistersHaveNoInfluence := by
  unfold Obligations.StaleRegistersHaveNoInfluence
  intro s t u n hready hstale hrun
  have hagree := agree_of_sameButStale hready hstale
  have hs : OnPath s := .of_idle hready.pos hready.op hready.phase
  have ht : OnPath t :=
    .of_idle (hagree.pos.trans hready.pos) (hagree.op.trans hready.op) (hagree.phase.trans hready.phase)
  obtain ⟨v, hv, h⟩ := hagree.run hs ht hrun
  exact ⟨v, hv, h.trace, h.delivered, h.phase, h.op, h.port, h.requests⟩

/-- Settles O42: a reset fills the port anew, at the reset state and at every later one. -/
theorem resetLeavesThePortUnspecified : Obligations.ResetLeavesThePortUnspecified := by
  unfold Obligations.ResetLeavesThePortUnspecified
  refine ⟨fun r => memory_read_afterReset Config.default 0 r, fun s t hr hstep r => ?_⟩
  rw [step_reset s hr] at hstep
  cases hstep
  exact memory_read_afterReset s.cfg (s.resets + 1) r

/-- Settles O43: the fields of the reset state. -/
theorem resetStateIsIdle : Obligations.ResetStateIsIdle := by
  unfold Obligations.ResetStateIsIdle
  exact ⟨rfl, rfl, rfl, rfl, rfl, rfl⟩

end Sys2Proof.Proofs
end

/-! PROOFS of 20_memory.md: what a port read returns (R57, R60), and what a port write leaves unchanged (R53, R59, R62). Both
rest on one notion, `Moves`: what follows an access touches the phase, the counters and the position alone, so the access
itself says all about the port, the trace and the registers. -/

namespace Sys2Proof.Proofs

open Sys2Proof.Machine Sys2Proof.Safety

/-! ### What follows an access moves the operation and nothing else -/

/-- From `s` to `t` at most the phase, the loop counters and the position changed. -/
def Moves (s t : State) : Prop :=
  ∃ (ph : Phase) (k q : Nat) (p : Pos), t = { s with phase := ph, k := k, q := q, pos := p }

theorem Moves.refl (s : State) : Moves s s := ⟨_, _, _, _, rfl⟩

theorem Moves.trans {s t u : State} (h : Moves s t) (h' : Moves t u) : Moves s u := by
  obtain ⟨_, _, _, _, rfl⟩ := h
  obtain ⟨_, _, _, _, rfl⟩ := h'
  exact ⟨_, _, _, _, rfl⟩

theorem Moves.port {s t : State} (h : Moves s t) : t.port = s.port := by
  obtain ⟨_, _, _, _, rfl⟩ := h
  rfl

theorem Moves.trace {s t : State} (h : Moves s t) : t.trace = s.trace := by
  obtain ⟨_, _, _, _, rfl⟩ := h
  rfl

theorem Moves.answers {s t : State} (h : Moves s t) : t.answers = s.answers := by
  obtain ⟨_, _, _, _, rfl⟩ := h
  rfl

theorem Moves.draws {s t : State} (h : Moves s t) : t.draws = s.draws := by
  obtain ⟨_, _, _, _, rfl⟩ := h
  rfl

theorem Moves.savedEn {s t : State} (h : Moves s t) : t.savedEn = s.savedEn := by
  obtain ⟨_, _, _, _, rfl⟩ := h
  rfl

theorem Moves.snap {s t : State} (h : Moves s t) : t.snap = s.snap := by
  obtain ⟨_, _, _, _, rfl⟩ := h
  rfl

theorem Moves.buf {s t : State} (h : Moves s t) : t.buf = s.buf := by
  obtain ⟨_, _, _, _, rfl⟩ := h
  rfl

theorem goto_moves (s : State) (p : Pos) : Moves s (s.goto p) := ⟨_, _, _, _, rfl⟩

theorem raise_moves (s : State) (e : TxError) : Moves s (s.raise e) := ⟨_, _, _, _, rfl⟩

theorem enterAddress_moves (s : State) : Moves s s.enterAddress := ⟨_, _, _, _, rfl⟩

theorem afterSendAddr_moves (s : State) : Moves s s.afterSendAddr := by
  obtain ⟨-, -, h⟩ | ⟨-, -, h⟩ | ⟨-, h⟩ := afterSendAddr_cases s <;> rw [h] <;> exact ⟨_, _, _, _, rfl⟩

theorem proceed_moves (s : State) : Moves s s.proceed := by
  obtain ⟨-, -, h⟩ | ⟨-, -, h⟩ | ⟨-, -, h⟩ | ⟨-, -, h⟩ := proceed_cases s <;> rw [h] <;> exact ⟨_, _, _, _, rfl⟩

theorem afterRecvNext_moves (s : State) : Moves s s.afterRecvNext := by
  obtain ⟨-, h⟩ | ⟨-, h⟩ := afterRecvNext_cases s <;> rw [h] <;> exact ⟨_, _, _, _, rfl⟩

/-- The quiescence loop's test, after its counter was set. -/
theorem setQ_quiesceOrExit_moves (s : State) (q : Nat) : Moves s { s with q := q }.quiesceOrExit := by
  obtain ⟨-, h⟩ | ⟨-, h⟩ := quiesceOrExit_cases { s with q := q } <;> rw [h] <;> exact ⟨_, _, _, _, rfl⟩

theorem afterStop_moves (s : State) : Moves s s.afterStop := by
  obtain ⟨-, h⟩ | ⟨-, h⟩ := afterStop_cases s <;> rw [h]
  · exact setQ_quiesceOrExit_moves s 0
  · exact goto_moves s _

theorem afterRestore_moves (s : State) : Moves s s.afterRestore := by
  obtain ⟨r, -, h⟩ | ⟨-, h⟩ := afterRestore_cases s <;> rw [h]
  · exact goto_moves s _
  · exact .refl s

theorem returnTo_moves {s : State} {p : Pos} {next : State → State} (h : ∀ u, Moves u (next u)) :
    Moves s (s.returnTo p next) := by
  obtain ⟨-, h'⟩ | ⟨-, h'⟩ := returnTo_cases s p next <;> rw [h']
  · exact h s
  · exact .refl s

theorem onOutput_moves {s : State} {shown : Bool} {p : Pos} {taken : State → State} (h : ∀ u, Moves u (taken u)) :
    Moves s (s.onOutput shown p taken) := by
  obtain ⟨-, -, h'⟩ | ⟨-, h'⟩ := onOutput_cases s shown p taken <;> rw [h']
  · exact h s
  · exact .refl s

theorem keepWaiting_moves (s : State) (shown : Bool) : Moves s (s.keepWaiting shown) :=
  onOutput_moves fun u => goto_moves u _

theorem lostArbitration_moves (s : State) (shown : Bool) : Moves s (s.lostArbitration shown) := by
  unfold State.lostArbitration
  split
  · exact raise_moves s _
  · exact .refl s

theorem outputFalse_moves (s : State) : Moves s s.outputFalse := by
  unfold State.outputFalse
  split <;> exact ⟨_, _, _, _, rfl⟩

/-- A row of the decoder goes on, and only moves the operation (40_status_decoder.md R100). -/
theorem exec_status_moves {i : Instr} {q : Query} {b : Byte} (s : State) (h : encode i = .status q b) :
    ∃ t, exec i s = .next t ∧ Moves s t := by
  cases i with
  | busStateBusError => exact ⟨_, rfl, keepWaiting_moves s _⟩
  | busStateUnknown => exact ⟨_, rfl, keepWaiting_moves s _⟩
  | busStateIdle => exact ⟨_, rfl, onOutput_moves enterAddress_moves⟩
  | busStateOwner => exact ⟨_, rfl, keepWaiting_moves s _⟩
  | busStateBusy => exact ⟨_, rfl, keepWaiting_moves s _⟩
  | readInterruptFlag => exact ⟨_, rfl, onOutput_moves fun u => goto_moves u _⟩
  | writeInterruptFlag => exact ⟨_, rfl, onOutput_moves fun u => goto_moves u _⟩
  | clockHeld => exact ⟨_, rfl, onOutput_moves proceed_moves⟩
  | ackStateNack => exact ⟨_, rfl, onOutput_moves fun u => raise_moves u _⟩
  | ackStateAck => exact ⟨_, rfl, onOutput_moves fun u => goto_moves u _⟩
  | arbitrationLostAliased => exact ⟨_, rfl, lostArbitration_moves s _⟩
  | arbitrationLostSeparate => exact ⟨_, rfl, lostArbitration_moves s _⟩
  | _ => nomatch h

/-- The tests of a snapshot always come to an end, and only move the operation (00_scope.md R6; log 9). -/
theorem settle_moves (n : Nat) (s : State) : ∃ t, settle n s = .next t ∧ Moves s t := by
  induction n generalizing s with
  | zero => exact ⟨s, rfl, .refl s⟩
  | succ n ih =>
    cases hq : s.pos.query with
    | none => exact ⟨s, settle_rest (n + 1) s hq, .refl s⟩
    | some q =>
      rw [settle_test n s q hq]
      cases hd : decode s.cfg (.status q s.snap) with
      | error e =>
        obtain ⟨t, ht, hm⟩ := ih s.outputFalse
        exact ⟨t, ht, (outputFalse_moves s).trans hm⟩
      | ok i =>
        obtain ⟨u, hu, hs⟩ := exec_status_moves s (encode_of_decode hd)
        obtain ⟨t, ht, hm⟩ := ih u
        exact ⟨t, by simpa [hu] using ht, hs.trans hm⟩

/-! ### The byte a port read returns -/

/-- The answer is the next byte the state lists, or the next free one if it lists none (R57; log 4). -/
theorem answer_eq {s : State} {v : Byte}
    (h : (∃ rest, s.answers = v :: rest) ∨ (s.answers = [] ∧ v = Config.portDraw s.draws)) : s.answer = v := by
  obtain ⟨rest, h⟩ | ⟨h, rfl⟩ := h <;> simp [State.answer, h]

/-- A step outside reset is the access of the fetched instruction, with moves after it. -/
theorem step_moves_exec {s u : State} {i : Instr} (hr : s.resetIn = false) (hf : s.fetch = .instr i)
    (he : exec i s = .next u) : ∃ t, step s = .next t ∧ Moves u t := by
  rw [step_running s hr, stepRunning_instr hf, he]
  exact settle_moves maxTests u

/-- What one port read left stands as it is after moves (R60). -/
theorem readByte_of_moves {s u t : State} {r : PortReg} {v : Byte} (h : readByte s u r v) (hm : Moves u t) :
    readByte s t r v := by
  obtain ⟨htrace, hanswers, hdraws⟩ := h
  exact ⟨hm.trace.trans htrace, hm.answers.trans hanswers, hm.draws.trans hdraws⟩

/-- `EN_SAVE` of either operation (41_bus_primitives.md R120). -/
theorem exec_fetched_enSave {s : State} (hp : s.pos = .enSave) (hop : s.op = .write ∨ s.op = .read) :
    ∃ i, s.fetch = .instr i ∧ exec i s = .next s.enSave := by
  rcases hop with hop | hop
  · exact ⟨_, fetch_write hop (by rw [hp]; rfl), by simp [exec_write, execWrite, State.canAccept, hop, hp]⟩
  · exact ⟨_, fetch_read hop (by rw [hp]; rfl), by simp [exec_read, execRead, State.canAccept, hop, hp]⟩

/-- A WRITE reads STATUS in `WAIT_IDLE`, `WAIT_WIF` and `ARB_CHECK` (41_bus_primitives.md R124, R126, R135). -/
theorem exec_fetched_write_snap {s : State} (hop : s.op = .write)
    (hp : s.pos = .waitIdle ∨ s.pos = .waitWif ∨ s.pos = .arbCheck) :
    ∃ i u, s.fetch = .instr i ∧ exec i s = .next u ∧ Moves s.snapStatus u := by
  have hf : s.fetch = .instr (.write s.addr s.data) := fetch_write hop ((ownedBy_write_iff s.pos).mpr (by tauto))
  have hexec : ∀ {u}, Moves s.snapStatus u → execWrite s.addr s.data s = .next u →
      ∃ i u, s.fetch = .instr i ∧ exec i s = .next u ∧ Moves s.snapStatus u := fun hm he => ⟨_, _, hf, he, hm⟩
  obtain hp | hp | hp := hp
  · exact hexec (goto_moves _ .testIdle) (by simp [execWrite, State.canAccept, hop, hp])
  · exact hexec (goto_moves _ .testWif) (by simp [execWrite, State.canAccept, hop, hp])
  · exact hexec (goto_moves _ .testArbStop) (by simp [execWrite, State.canAccept, hop, hp])

/-- A READ reads STATUS in `WAIT_IDLE`, in the poll for each byte and in `QUIESCE` (41_bus_primitives.md R124, R131;
42_transactions.md R173). -/
theorem exec_fetched_read_snap {s : State} (hop : s.op = .read)
    (hp : s.pos = .waitIdle ∨ s.pos = .pollRead ∨ s.pos = .quiesce) :
    ∃ i u, s.fetch = .instr i ∧ exec i s = .next u ∧ Moves s.snapStatus u := by
  have hf : s.fetch = .instr (.read s.addr s.buf) := fetch_read hop ((ownedBy_read_iff s.pos).mpr (by tauto))
  have hexec : ∀ {u}, Moves s.snapStatus u → execRead s.addr s.buf s = .next u →
      ∃ i u, s.fetch = .instr i ∧ exec i s = .next u ∧ Moves s.snapStatus u := fun hm he => ⟨_, _, hf, he, hm⟩
  obtain hp | hp | hp := hp
  · exact hexec (goto_moves _ .testIdle) (by simp [execRead, State.canAccept, hop, hp])
  · exact hexec (goto_moves _ .testArbRead) (by simp [execRead, State.canAccept, hop, hp])
  · exact hexec (setQ_quiesceOrExit_moves _ (s.q + 1)) (by simp [execRead, State.canAccept, hop, hp, State.quiesceRead])

/-- The DATA read of a READ (42_transactions.md R173). -/
theorem exec_fetched_readData {s : State} (hop : s.op = .read) (hp : s.pos = .readData) (hk : s.k < s.buf.length) :
    ∃ i, s.fetch = .instr i ∧ exec i s = .next s.captureData :=
  ⟨_, fetch_read hop (by rw [hp]; rfl), by simp [exec_read, execRead, State.canAccept, hop, hp, hk]⟩

/-- Settles O18: at each position the fetched request makes its one read of the answer, and the rest of the step moves the
operation only. -/
theorem portReadIsTheEnvironmentsAnswer : Obligations.PortReadIsTheEnvironmentsAnswer := by
  unfold Obligations.PortReadIsTheEnvironmentsAnswer
  intro s v hv
  obtain rfl := answer_eq hv
  refine ⟨rfl, fun hr => ⟨fun hat => ?_, fun hat => ?_, fun hat hk => ?_⟩⟩
  · simp only [List.mem_cons, Prod.mk.injEq, List.not_mem_nil, or_false] at hat
    obtain ⟨i, hf, he⟩ := exec_fetched_enSave (hat.elim And.right And.right) (hat.imp And.left And.left)
    obtain ⟨t, ht, hm⟩ := step_moves_exec hr hf he
    exact ⟨t, ht, readByte_of_moves ⟨rfl, rfl, rfl⟩ hm, hm.savedEn⟩
  · have hsnap : ∃ i u, s.fetch = .instr i ∧ exec i s = .next u ∧ Moves s.snapStatus u := by
      simp only [List.mem_cons, Prod.mk.injEq, List.not_mem_nil, or_false] at hat
      obtain ⟨hop, hp⟩ | ⟨hop, hp⟩ | ⟨hop, hp⟩ | ⟨hop, hp⟩ | ⟨hop, hp⟩ | ⟨hop, hp⟩ := hat
      · exact exec_fetched_write_snap hop (.inl hp)
      · exact exec_fetched_read_snap hop (.inl hp)
      · exact exec_fetched_write_snap hop (.inr (.inl hp))
      · exact exec_fetched_write_snap hop (.inr (.inr hp))
      · exact exec_fetched_read_snap hop (.inr (.inl hp))
      · exact exec_fetched_read_snap hop (.inr (.inr hp))
    obtain ⟨i, u, hf, he, hu⟩ := hsnap
    obtain ⟨t, ht, hm⟩ := step_moves_exec hr hf he
    have hall := hu.trans hm
    exact ⟨t, ht, readByte_of_moves ⟨rfl, rfl, rfl⟩ hall, hall.snap⟩
  · obtain ⟨hop, hp⟩ := Prod.mk.inj hat
    obtain ⟨i, hf, he⟩ := exec_fetched_readData hop hp hk
    obtain ⟨t, ht, hm⟩ := step_moves_exec hr hf he
    exact ⟨t, ht, readByte_of_moves ⟨rfl, rfl, rfl⟩ hm, hm.buf⟩

/-! ### What an instruction stores -/

/-- What an execution did to the port: it left every byte as it was, or it delivered one byte to one register and put that
one write into the trace (R53, R62). -/
inductive Stores (s t : State) : Option PortReg → Prop
  | nothing (port : t.port = s.port) : Stores s t none
  | byte {r : PortReg} (v : Byte) (port : t.port = Memory.write s.port (regAddr s.cfg r) v)
      (trace : t.trace = s.trace ++ [.write r v]) : Stores s t (some r)

/-- A port write stores its byte, whatever moves follow it. -/
theorem stores_of_portWrite {s t : State} {r : PortReg} {v : Byte} (h : Moves (s.portWrite r v) t) :
    Stores s t (some r) := .byte v h.port h.trace

/-- A write of CMD, ADDR or CTRLA with its handover. -/
theorem portWrite_returnTo_stores (s : State) (r : PortReg) (v : Byte) (p : Pos) {next : State → State}
    (h : ∀ u, Moves u (next u)) : Stores s ((s.portWrite r v).returnTo p next) (some r) :=
  stores_of_portWrite (returnTo_moves h)

theorem storedReg_configure_own {s : State} (hop : s.op = .configure) :
    (s.pos = .hold → storedReg s .configure = some .hold) ∧ (s.pos = .baud → storedReg s .configure = some .baud) ∧
      (s.pos = .forceIdle → storedReg s .configure = some .status) := by
  refine ⟨fun hp => ?_, fun hp => ?_, fun hp => ?_⟩ <;> simp [storedReg, State.canAccept, hop, hp]

theorem storedReg_configure_away {s : State}
    (h : s.canAccept = true ∨ s.op ≠ .configure ∨ (s.pos ≠ .hold ∧ s.pos ≠ .baud ∧ s.pos ≠ .forceIdle)) :
    storedReg s .configure = none := by
  obtain h | h | ⟨hhold, hbaud, hforce⟩ := h
  · simp [storedReg, h]
  · simp [storedReg, h]
  · simp [storedReg]

/-- CONFIGURE stores to HOLD, BAUD and STATUS at its three positions (42_transactions.md R152). -/
theorem execConfigure_stores {s t : State} (he : execConfigure s = .next t) : Stores s t (storedReg s .configure) := by
  unfold execConfigure at he
  split at he
  next hfree => cases he; rw [storedReg_configure_away (.inl hfree)]; exact .nothing rfl
  next =>
    split at he
    next hop =>
      obtain ⟨hhold, hbaud, hforce⟩ := storedReg_configure_own hop
      split at he <;> cases he
      next hp => rw [hhold hp]; exact stores_of_portWrite (goto_moves (s.portWrite .hold s.cfg.hold) _)
      next hp => rw [hbaud hp]; exact stores_of_portWrite (goto_moves (s.portWrite .baud s.cfg.baud) _)
      next hp => rw [hforce hp]; exact stores_of_portWrite (goto_moves (s.portWrite .status (forceIdleByte s.cfg)) _)
      next hh hb hf => rw [storedReg_configure_away (.inr (.inr ⟨hh, hb, hf⟩))]; exact .nothing rfl
    next hop => cases he; rw [storedReg_configure_away (.inr (.inl hop))]; exact .nothing rfl

theorem storedReg_write_putByte {s : State} {a : Byte} {d : List Byte} (hbusy : ¬ s.canAccept = true) (hop : s.op = .write)
    (hp : s.pos = .putByte) : storedReg s (.write a d) = some .data := by
  simp [storedReg, hbusy, hop, hp]

theorem storedReg_write_away {s : State} {a : Byte} {d : List Byte}
    (h : s.canAccept = true ∨ s.op ≠ .write ∨ s.pos ≠ .putByte) : storedReg s (.write a d) = none := by
  obtain h | h | h := h <;> simp [storedReg, h]

/-- WRITE stores to DATA at `PUT_BYTE`, and nowhere else (41_bus_primitives.md R127). -/
theorem execWrite_stores {s t : State} {a : Byte} {d : List Byte} (he : execWrite a d s = .next t) :
    Stores s t (storedReg s (.write a d)) := by
  have haway : ∀ {p}, s.pos = p → p ≠ .putByte → storedReg s (.write a d) = none := fun hp hne =>
    storedReg_write_away (.inr (.inr (hp ▸ hne)))
  unfold execWrite at he
  split at he
  next hfree => cases he; rw [storedReg_write_away (.inl hfree)]; exact .nothing rfl
  next hbusy =>
    split at he
    next hop =>
      split at he
      next hp => cases he; rw [haway hp nofun]; exact .nothing rfl
      next hp => cases he; rw [haway hp nofun]; exact .nothing rfl
      next hp => cases he; rw [haway hp nofun]; exact .nothing rfl
      next hp =>
        rw [storedReg_write_putByte hbusy hop hp]
        split at he <;> cases he
        next b _ => exact stores_of_portWrite (goto_moves (s.portWrite .data b) _)
      next hp => cases he; rw [haway hp nofun]; exact .nothing rfl
      next hput _ => cases he; rw [haway rfl hput]; exact .nothing rfl
    next hop => cases he; rw [storedReg_write_away (.inr (.inl hop))]; exact .nothing rfl

/-- READ stores nothing: all its own accesses are reads (42_transactions.md R173). -/
theorem execRead_stores {s t : State} {a : Byte} {b : List Byte} (he : execRead a b s = .next t) : Stores s t none := by
  unfold execRead at he
  split at he
  next => cases he; exact .nothing rfl
  next =>
    split at he
    next =>
      split at he
      next => cases he; exact .nothing rfl
      next => cases he; exact .nothing rfl
      next => cases he; exact .nothing rfl
      next => split at he <;> cases he; exact .nothing rfl
      next => cases he; exact .nothing (setQ_quiesceOrExit_moves s.snapStatus _).port
      next => cases he; exact .nothing rfl
    next => cases he; exact .nothing rfl

/-- Every instruction stores to the register of `storedReg`, and to that one alone. -/
theorem exec_stores {i : Instr} {s t : State} (he : exec i s = .next t) : Stores s t (storedReg s i) := by
  have hstatus : ∀ {q b}, encode i = .status q b → Stores s t none := fun h => by
    obtain ⟨u, hu, hm⟩ := exec_status_moves s h
    cases hu.symm.trans he
    exact .nothing hm.port
  cases i with
  | configure => exact execConfigure_stores (exec_configure s ▸ he)
  | write a d => exact execWrite_stores (exec_write a d s ▸ he)
  | read a b => exact execRead_stores (exec_read a b s ▸ he)
  | resOk => cases he; exact .nothing rfl
  | resNack => cases he; exact .nothing rfl
  | resPartialTransmit => cases he; exact .nothing rfl
  | resArbitrationLost => cases he; exact .nothing rfl
  | respondAck => cases he; exact portWrite_returnTo_stores s _ _ _ fun u => goto_moves u _
  | respondNack => cases he; exact portWrite_returnTo_stores s _ _ _ fun u => goto_moves u _
  | recvNext => cases he; exact portWrite_returnTo_stores s _ _ _ afterRecvNext_moves
  | stop => cases he; exact portWrite_returnTo_stores s _ _ _ afterStop_moves
  | repStart => cases he
  | addrWrite => cases he; exact portWrite_returnTo_stores s _ _ _ afterSendAddr_moves
  | addrRead => cases he; exact portWrite_returnTo_stores s _ _ _ afterSendAddr_moves
  | enSet => cases he; exact portWrite_returnTo_stores s _ _ _ fun u => goto_moves u _
  | enRestore => cases he; exact stores_of_portWrite (afterRestore_moves _)
  | _ => exact hstatus rfl

/-- Settles O26: the laws of a read after a write, at the register the instruction stores to. -/
theorem portWritesHaveAFrame : Obligations.PortWritesHaveAFrame := by
  unfold Obligations.PortWritesHaveAFrame
  intro i s t he
  have hs := exec_stores he
  refine ⟨fun hnone a => ?_, fun r hsome => ?_⟩
  · rw [hnone] at hs
    obtain ⟨hport⟩ := hs
    rw [hport]
  · rw [hsome] at hs
    obtain _ | ⟨v, hport, htrace⟩ := hs
    rw [hport]
    exact ⟨fun a ha => memory_read_write_other _ _ a v ha, v, htrace, memory_read_write_same _ _ v⟩

end Sys2Proof.Proofs

/-! PROOFS of 30_encoding.md: the decoder and the encoder are inverse to each other on the well-formed instructions (R70), the
bytes of the formats (R85, R86, R88, R89), the refusal of a reserved header (R73), and the codes and indices each request can
deliver (R74). That what decodes encodes to its message is `encode_of_decode`; here is the other direction, and that what
decodes is well-formed, channel by channel. -/

namespace Sys2Proof.Proofs

open Sys2Proof.Machine Sys2Proof.Safety

/-! ### Requests (R71 to R73) -/

theorem decodeOperands_operandsOf {c : Config} {bytes : List Byte} (make : Byte → List Byte → Instr) (a : Byte)
    (hfit : lengthFits c bytes.length = true) : decodeOperands c make (some (operandsOf a bytes)) = .ok (make a bytes) := by
  simp [decodeOperands, operandsOf, hfit]

theorem decode_headerWrite (c : Config) (o : Option Operands) :
    decode c (.req { header := headerWrite, operands := o }) = decodeOperands c .write o := rfl

theorem decode_headerRead (c : Config) (o : Option Operands) :
    decode c (.req { header := headerRead, operands := o }) = decodeOperands c .read o := rfl

theorem wf_of_decodeRequest {c : Config} {r : Request} {i : Instr} (hd : decodeRequest c r = .ok i) : i.wf c = true := by
  obtain rfl | ⟨a, l, rfl, hfit⟩ | ⟨a, l, rfl, hfit⟩ := decodeRequest_ok_cases hd
  · rfl
  · exact hfit
  · exact hfit

/-- A header with OP in 3..7 or a bit of 7:3 set is none of the three (R73), whatever the operands are. -/
theorem decodeRequest_reserved {c : Config} {r : Request}
    (h : 3 ≤ (r.header &&& 0b00000111).toNat ∨ r.header &&& 0b11111000 ≠ 0) :
    decodeRequest c r = .error .reservedHeader := by
  obtain ⟨hconfigure, hwrite, hread⟩ := (reservedHeader_iff r.header).mp h
  rw [decodeRequest, if_neg hconfigure, if_neg hwrite, if_neg hread]

/-! ### Results (R74) -/

theorem wf_of_decodeResult {c : Config} {code : Byte} {index : Nat} {i : Instr} (hd : decodeResult c code index = .ok i) :
    i.wf c = true := by
  unfold decodeResult at hd
  split at hd
  next =>
    split at hd <;> cases hd
    next hfit => exact hfit
  next =>
    -- The three results without an index have no operand.
    repeat' split at hd
    all_goals cases hd
    all_goals rfl

/-! ### Outputs of the status decoder (R80, R81) -/

/-- The row of each value of `bus_state`. -/
def busStateRow (b : Byte) : BusStateResult → Instr
  | .busError => .busStateBusError b
  | .ok .unknown => .busStateUnknown b
  | .ok .idle => .busStateIdle b
  | .ok .owner => .busStateOwner b
  | .ok .busy => .busStateBusy b

/-- The row of each value of `ack_state`. -/
def ackStateRow (b : Byte) : AckKind → Instr
  | .nack => .ackStateNack b
  | .ack => .ackStateAck b

theorem decodeStatus_busState (c : Config) (b : Byte) :
    decodeStatus c .busState b = .ok (busStateRow b (busState c b)) := by
  unfold decodeStatus
  rcases busState c b with (_ | _ | _ | _) | _ <;> rfl

theorem decodeStatus_ackState (c : Config) (b : Byte) :
    decodeStatus c .ackState b = .ok (ackStateRow b (ackState c b)) := by
  unfold decodeStatus
  cases ackState c b <;> rfl

theorem wf_busStateRow (c : Config) (b : Byte) (v : BusStateResult) :
    (busStateRow b v).wf c = true ↔ busState c b = v := by
  rcases v with (_ | _ | _ | _) | _ <;> exact beq_iff_eq

theorem wf_ackStateRow (c : Config) (b : Byte) (v : AckKind) : (ackStateRow b v).wf c = true ↔ ackState c b = v := by
  cases v <;> exact beq_iff_eq

/-- A byte that shows a value of `bus_state` decodes to that value's row. -/
theorem decode_busStateRow {c : Config} {b : Byte} {v : BusStateResult} (hw : (busStateRow b v).wf c = true) :
    decode c (.status .busState b) = .ok (busStateRow b v) := by
  rw [decode, decodeStatus_busState, (wf_busStateRow c b v).mp hw]

/-- A byte that shows a value of `ack_state` decodes to that value's row. -/
theorem decode_ackStateRow {c : Config} {b : Byte} {v : AckKind} (hw : (ackStateRow b v).wf c = true) :
    decode c (.status .ackState b) = .ok (ackStateRow b v) := by
  rw [decode, decodeStatus_ackState, (wf_ackStateRow c b v).mp hw]

/-- An output that is true or false decodes only where it is true (R81). -/
theorem shown_of_decodes {shown : Bool} {i j : Instr}
    (hd : (if shown then .ok j else .error DecodeError.outputFalse) = Except.ok i) : shown = true ∧ j = i := by
  cases shown with
  | true => exact ⟨rfl, Except.ok.inj hd⟩
  | false => cases hd

theorem wf_of_decodeStatus {c : Config} {q : Query} {b : Byte} {i : Instr} (hd : decodeStatus c q b = .ok i) :
    i.wf c = true := by
  cases q with
  | busState =>
    rw [decodeStatus_busState] at hd
    cases hd
    exact (wf_busStateRow c b _).mpr rfl
  | ackState =>
    rw [decodeStatus_ackState] at hd
    cases hd
    exact (wf_ackStateRow c b _).mpr rfl
  | readInterruptFlag =>
    obtain ⟨hshown, rfl⟩ := shown_of_decodes hd
    exact hshown
  | writeInterruptFlag =>
    obtain ⟨hshown, rfl⟩ := shown_of_decodes hd
    exact hshown
  | clockHeld =>
    obtain ⟨hshown, rfl⟩ := shown_of_decodes hd
    exact hshown
  | arbitrationLost =>
    obtain ⟨hshown, rfl⟩ := shown_of_decodes hd
    cases halias : c.arbAlias <;> simp [Instr.wf, halias, hshown]

/-! ### Bytes written to CMD, ADDR and CTRLA (R85 to R90) -/

/-- The formats whose rows have no condition on their operands. -/
theorem wf_of_byteFormat {i : Instr} (c : Config) (hf : i.format = .cmd ∨ i.format = .addrB ∨ i.format = .ctrlW) :
    i.wf c = true := by
  cases i <;> simp_all [Instr.format, Instr.wf]

theorem decodeAddrByte_write (a : BitVec 7) : decodeAddrByte (addrByteOf7 a .write) = .addrWrite a := by
  have hbit : ¬ (a ++ dirBit .write).getLsbD 0 = true := by rw [append_bit0]; decide
  rw [decodeAddrByte, addrByteOf7, if_neg hbit, upper7_append]

theorem decodeAddrByte_read (a : BitVec 7) : decodeAddrByte (addrByteOf7 a .read) = .addrRead a := by
  have hbit : (a ++ dirBit .read).getLsbD 0 = true := by rw [append_bit0]; decide
  rw [decodeAddrByte, addrByteOf7, if_pos hbit, upper7_append]

theorem decode_ctrlEntry_append (c : Config) (e : BitVec 7) :
    decode c (.ctrlEntry (e ++ (1 : BitVec 1))) = .ok (.enSet e) := by
  simp [decode]

/-- The five commands are the bytes below 5 (R85, R86). -/
theorem decodeCommand_reserved {v : Byte} (h : 5 ≤ v.toNat) : decodeCommand v = .error .reservedCommand := by
  have hne : ∀ {w : Byte}, w.toNat < 5 → v ≠ w := by
    rintro w hw rfl
    omega
  rw [decodeCommand, if_neg (hne (by decide)), if_neg (hne (by decide)), if_neg (hne (by decide)),
    if_neg (hne (by decide)), if_neg (hne (by decide))]

/-- The address byte as a number: bit 7 of the argument falls off, the direction stands in bit 0 (R88). -/
theorem toNat_addrByte (a : Byte) (rw : Dir) : (addrByte a rw).toNat = a.toNat * 2 % 256 + (dirBit rw).toNat := by
  have hbit : (dirBit rw).toNat < 2 ^ 1 := (dirBit rw).isLt
  rw [addrByte_eq, addrByteOf7, BitVec.toNat_append, ← Nat.shiftLeft_add_eq_or_of_lt hbit, Nat.shiftLeft_eq,
    BitVec.extractLsb'_toNat, Nat.shiftRight_zero]
  omega

/-- Bit 7 of the address argument does not reach the address byte (R89). -/
theorem addrByte_add_0x80 (a : Byte) (rw : Dir) : addrByte (a + 0x80) rw = addrByte a rw := by
  apply BitVec.eq_of_toNat_eq
  rw [toNat_addrByte, toNat_addrByte, BitVec.toNat_add]
  have h80 : (0x80 : Byte).toNat = 128 := rfl
  omega

/-! ### The decoder and the encoder -/

/-- Every row is read back from its message, under every configuration it is well-formed in. -/
theorem decode_encode {c : Config} {i : Instr} (hw : i.wf c = true) : decode c (encode i) = .ok i := by
  cases i with
  | configure => rfl
  | write a bytes => exact decodeOperands_operandsOf .write a hw
  | read a bytes => exact decodeOperands_operandsOf .read a hw
  | resOk => rfl
  | resNack => rfl
  | resPartialTransmit k => exact if_pos hw
  | resArbitrationLost => rfl
  | busStateBusError b => exact decode_busStateRow (v := .busError) hw
  | busStateUnknown b => exact decode_busStateRow (v := .ok .unknown) hw
  | busStateIdle b => exact decode_busStateRow (v := .ok .idle) hw
  | busStateOwner b => exact decode_busStateRow (v := .ok .owner) hw
  | busStateBusy b => exact decode_busStateRow (v := .ok .busy) hw
  | readInterruptFlag b => exact if_pos hw
  | writeInterruptFlag b => exact if_pos hw
  | clockHeld b => exact if_pos hw
  | ackStateNack b => exact decode_ackStateRow (v := .nack) hw
  | ackStateAck b => exact decode_ackStateRow (v := .ack) hw
  | arbitrationLostAliased b =>
    obtain ⟨halias, hlost⟩ := Bool.and_eq_true_iff.mp hw
    simp [encode, decode, decodeStatus, halias, hlost]
  | arbitrationLostSeparate b =>
    obtain ⟨halias, hlost⟩ : c.arbAlias = false ∧ arbitrationLost c b = true := by simpa [Instr.wf] using hw
    simp [encode, decode, decodeStatus, halias, hlost]
  | respondAck => rfl
  | respondNack => rfl
  | recvNext => rfl
  | stop => rfl
  | repStart => rfl
  | addrWrite a => exact congrArg Except.ok (decodeAddrByte_write a)
  | addrRead a => exact congrArg Except.ok (decodeAddrByte_read a)
  | enSet e => exact decode_ctrlEntry_append c e
  | enRestore e => rfl

/-- What decodes is well-formed. -/
theorem wf_of_decode {c : Config} {m : Message} {i : Instr} (hd : decode c m = .ok i) : i.wf c = true := by
  have hfmt : i.format = m.format := encode_of_decode hd ▸ (encode_format i).symm
  cases m with
  | req r => exact wf_of_decodeRequest hd
  | res code index => exact wf_of_decodeResult hd
  | status q b => exact wf_of_decodeStatus hd
  | cmd v => exact wf_of_byteFormat c (.inl hfmt)
  | addrB v => exact wf_of_byteFormat c (.inr (.inl hfmt))
  | ctrlEntry v => exact wf_of_byteFormat c (.inr (.inr hfmt))
  | ctrlExit v => exact wf_of_byteFormat c (.inr (.inr hfmt))

/-! ### What a completion delivers -/

/-- Only a completion delivers a result, and it delivers its own (42_transactions.md R151). -/
theorem complete_of_delivered {s t : State} {d : Delivery} (hstep : stepRunning s = .next t)
    (hd : t.delivered = s.delivered ++ [d]) : ∃ r, s.pos = .complete r ∧ d = s.delivery r := by
  have hsilent : ∀ {l}, ¬ Emits s t l [] := fun emits => by simp [emits.delivered] at hd
  cases stepRunning_effect hstep with
  | looks _ emits => exact absurd emits hsilent
  | tests _ emits => exact absurd emits hsilent
  | access _ _ _ _ emits => exact absurd emits hsilent
  | completes r hp emits => exact ⟨r, hp, by simpa [emits.delivered] using hd.symm⟩

/-! ### The obligations -/

/-- Settles O10: the case split over the 28 rows is `decode_encode`. -/
theorem decodeEncodeAgree : Obligations.DecodeEncodeAgree := by
  unfold Obligations.DecodeEncodeAgree
  exact fun _ _ hw => decode_encode hw

/-- Settles O11: channel by channel, in `encode_of_decode` and `wf_of_decode`. -/
theorem encodeDecodeAgree : Obligations.EncodeDecodeAgree := by
  unfold Obligations.EncodeDecodeAgree
  exact fun _ _ _ hd => ⟨encode_of_decode hd, wf_of_decode hd⟩

/-- Settles O33: the header alone makes the decoding fail, and a failed request is refused. -/
theorem reservedHeaderIsRefused : Obligations.ReservedHeaderIsRefused := by
  unfold Obligations.ReservedHeaderIsRefused
  intro s r rest hready hr hreserved
  rw [step_running s hready.noReset]
  exact stepRunning_refuse hready.pos hr (decodeRequest_reserved hreserved)

/-- Settles O51: a result is delivered at its completion, where the invariant says which results each operation can have. -/
theorem errorsOfEachRequest : Obligations.ErrorsOfEachRequest := by
  unfold Obligations.ErrorsOfEachRequest
  intro s t d hinv hr hstep hd
  rw [step_running s hr] at hstep
  obtain ⟨r, hp, rfl⟩ := complete_of_delivered hstep hd
  have hexit : exitOk s r ∨ (r = .ok ∧ s.op = .configure ∧ s.phase = .idle) := posOk_at hinv.position hp
  cases r with
  | ok => simp [State.delivery, resultCode, resultIndex]
  | err e =>
    have hexit : exitOk s (.err e) := hexit.resolve_right (by simp)
    cases e with
    | nack =>
      obtain ⟨hop, -⟩ := hexit
      simp [State.delivery, resultCode, resultIndex, hop]
    | partialTransmit k =>
      obtain ⟨hop, -, hk⟩ := hexit
      simp [State.delivery, resultCode, resultIndex, hop, hk]
    | arbitrationLost =>
      obtain ⟨hop | hop, -⟩ := hexit <;> simp [State.delivery, resultCode, resultIndex, hop]

/-- Settles O6: the byte as a number and as a concatenation, and the direction that the operation puts below it. -/
theorem addressByteIsShiftedAddress : Obligations.AddressByteIsShiftedAddress := by
  unfold Obligations.AddressByteIsShiftedAddress
  refine ⟨fun a => ⟨toNat_addrByte a .write, toNat_addrByte a .read, addrByte_eq a .write, addrByte_eq a .read⟩,
    fun s hp => ⟨fun hop => ?_, fun hop => ?_⟩⟩
  · simp [State.message, State.dir, hp, hop]
  · simp [State.message, State.dir, hp, hop]

/-- Settles O7: bit 7 falls off, and the decoder of an address byte has no error. -/
theorem addressBit7IsDropped : Obligations.AddressBit7IsDropped := by
  unfold Obligations.AddressBit7IsDropped
  exact ⟨addrByte_add_0x80, rfl, rfl, fun _ _ => rfl⟩

/-- Settles O8: the five encodings, and no byte from 5 up is one of them. -/
theorem commandBytesAreFive : Obligations.CommandBytesAreFive := by
  unfold Obligations.CommandBytesAreFive
  exact ⟨rfl, rfl, rfl, rfl, rfl, fun _ _ => decodeCommand_reserved⟩

/-- Settles O9: each message is the encoding of its well-formed instruction. -/
theorem knownMessagesDecode : Obligations.KnownMessagesDecode := by
  unfold Obligations.KnownMessagesDecode
  exact ⟨decode_encode (i := .configure) rfl, decode_encode (i := .resArbitrationLost) rfl,
    decode_encode (i := .busStateIdle 0xF9) rfl, decode_encode (i := .recvNext) rfl,
    decode_encode (i := .addrRead 0b0101010) rfl, decode_encode (i := .enSet 0b1100000) rfl,
    decode_encode (i := .enRestore 0b11000000) rfl⟩

end Sys2Proof.Proofs

/-! PROOFS of 40_status_decoder.md: the outputs of the decoder as bits of the status byte (R101, R103 to R107), what
`P_ARB_ALIAS` makes of them (R109), and the rows of the decoder, which change nothing where their output is not tested
(R100) and raise `ArbitrationLost` where a loss is (R107). -/

namespace Sys2Proof.Proofs

open Sys2Proof.Machine Sys2Proof.Safety

/-! ### The outputs of the decoder, as bits of the byte -/

/-- The two-bit field of R80, as arithmetic. -/
theorem toNat_busStateField (c : Config) (s : Byte) : (busStateField c s).toNat = (s >>> c.posBusState).toNat % 4 := by
  simp [busStateField]

theorem busState_of_error {c : Config} {s : Byte} (herr : s.getLsbD c.posBusErr = true) : busState c s = .busError :=
  if_pos herr

/-- With the error bit clear the field's value alone decides, by the table of R101. -/
theorem busState_of_field {c : Config} {s : Byte} (f : BitVec 2) (hclear : s.getLsbD c.posBusErr = false)
    (hf : (s >>> c.posBusState).toNat % 4 = f.toNat) : busState c s = .ok (decodeBusState f) := by
  have hfield : busStateField c s = f := BitVec.eq_of_toNat_eq ((toNat_busStateField c s).trans hf)
  simp [busState, statusBit, hclear, hfield]

/-- `ack_state` says as much as its bit does: each of its values is one value of the bit. -/
theorem ackState_eq_iff (c : Config) (s : Byte) (a : AckKind) :
    ackState c s = a ↔ s.getLsbD c.posRxAck = decide (a = .nack) := by
  unfold ackState statusBit
  cases s.getLsbD c.posRxAck <;> cases a <;> decide

theorem arbitrationLost_eq (c : Config) (s : Byte) :
    arbitrationLost c s = s.getLsbD (if c.arbAlias then c.posRxAck else c.posArbLost) := by
  unfold arbitrationLost statusBit
  split <;> rfl

/-! ### Two bits of a byte -/

/-- The byte with `x` at bit `p` and `y` at every other bit. -/
def byteWithBit (p : Nat) (x y : Bool) : Byte := BitVec.ofFnLE fun i => if i.val = p then x else y

theorem getLsbD_byteWithBit (p : Nat) (x y : Bool) {i : Nat} (hi : i < 8) :
    (byteWithBit p x y).getLsbD i = if i = p then x else y := by
  simp [byteWithBit, hi]

/-- In a legal layout without `P_ARB_ALIAS`, RXACK and ARBLOST are two bits of the byte (R12). -/
theorem arbLost_apart_of_wf {c : Config} (halias : c.arbAlias = false) (hwf : c.wf = true) :
    c.posRxAck < 8 ∧ c.posArbLost < 8 ∧ c.posArbLost ≠ c.posRxAck := by
  simp only [Config.wf, Bool.and_eq_true, decide_eq_true_eq, List.all_eq_true] at hwf
  obtain ⟨⟨⟨⟨⟨-, hnodup⟩, hbound⟩, -⟩, -⟩, -⟩ := hwf
  have hrxack : c.posRxAck ∈ c.flagPositions := by simp [Config.flagPositions]
  have harblost : c.posArbLost ∈ c.flagPositions := by simp [Config.flagPositions, halias]
  refine ⟨hbound _ hrxack, hbound _ harblost, fun heq => ?_⟩
  simp [Config.flagPositions, halias, heq] at hnodup

/-! ### A row of the decoder away from its test -/

theorem onOutput_elsewhere {s : State} {p : Pos} (shown : Bool) (taken : State → State)
    (hq : s.pos.query ≠ p.query) : s.onOutput shown p taken = s :=
  if_neg fun ⟨_, hp⟩ => hq (congrArg Pos.query hp)

theorem query_of_testsArbitration {s : State} (hp : s.pos = .testArb ∨ s.pos = .testArbStop ∨ s.pos = .testArbRead) :
    s.pos.query = some .arbitrationLost := by
  rcases hp with hp | hp | hp <;> rw [hp] <;> rfl

theorem lostArbitration_elsewhere {s : State} (shown : Bool) (hq : s.pos.query ≠ some .arbitrationLost) :
    s.lostArbitration shown = s :=
  if_neg fun ⟨_, hp⟩ => hq (query_of_testsArbitration hp)

/-- Each row has one output, and its branch is taken at the positions that test this output only. -/
theorem exec_status_elsewhere {i : Instr} {s : State} {q : Query} {b : Byte} (hi : encode i = .status q b)
    (hq : s.pos.query ≠ some q) : exec i s = .next s := by
  cases i with
  | busStateBusError | busStateUnknown | busStateIdle | busStateOwner | busStateBusy | readInterruptFlag
  | writeInterruptFlag | clockHeld | ackStateNack | ackStateAck =>
    cases hi
    exact congrArg _ (onOutput_elsewhere _ _ hq)
  | arbitrationLostAliased | arbitrationLostSeparate =>
    cases hi
    exact congrArg _ (lostArbitration_elsewhere _ hq)
  | _ => nomatch hi

/-! ### The rows of arbitration loss -/

/-- The row of the other value of `P_ARB_ALIAS` shows no loss, whatever the byte and the position are (log 15);
`exec_arbitrationLost` is the row of the state's own value. -/
theorem exec_arbitrationLost_otherAlias (s : State) (b : Byte) :
    exec (if s.cfg.arbAlias then .arbitrationLostSeparate b else .arbitrationLostAliased b) s = .next s := by
  cases h : s.cfg.arbAlias <;>
    simp [exec, execArbitrationLostAliased, execArbitrationLostSeparate, State.lostArbitration, h]

/-- A loss that is shown where it is tested is the error exit of 60_exceptions.md R195. -/
theorem lostArbitration_shown {s : State} (hp : s.pos = .testArb ∨ s.pos = .testArbStop ∨ s.pos = .testArbRead) :
    s.lostArbitration true = s.raise .arbitrationLost :=
  if_pos ⟨rfl, hp⟩

/-! ### The obligations -/

/-- Settles O3: under `P_ARB_ALIAS` both outputs read bit RXACK; without it they read two different bits, and a byte may have
any two values there. -/
theorem aliasDecidesWhetherLossShows : Obligations.AliasDecidesWhetherLossShows := by
  unfold Obligations.AliasDecidesWhetherLossShows
  refine fun c => ⟨fun halias s => ?_, fun halias hwf a l => ?_⟩
  · simp [ackState_eq_iff, arbitrationLost_eq, halias]
  · obtain ⟨hrxack, harblost, hapart⟩ := arbLost_apart_of_wf halias hwf
    refine ⟨byteWithBit c.posRxAck (decide (a = .nack)) l, ?_, ?_⟩
    · rw [ackState_eq_iff, getLsbD_byteWithBit _ _ _ hrxack, if_pos rfl]
    · simp [arbitrationLost_eq, halias, getLsbD_byteWithBit _ _ _ harblost, hapart]

/-- Settles O1: the error bit first, then the table at each of the four values of the field. -/
theorem busStateFollowsTable : Obligations.BusStateFollowsTable := by
  unfold Obligations.BusStateFollowsTable
  exact fun c s => ⟨busState_of_error, fun hclear =>
    ⟨busState_of_field 0 hclear, busState_of_field 1 hclear, busState_of_field 2 hclear, busState_of_field 3 hclear⟩⟩

/-- Settles O2: four outputs are their bit by definition, and `P_ARB_ALIAS` picks the bit of the fifth. -/
theorem flagsReadTheirBits : Obligations.FlagsReadTheirBits := by
  unfold Obligations.FlagsReadTheirBits
  exact fun c s => ⟨.rfl, .rfl, rfl, .rfl, by rw [arbitrationLost_eq]⟩

/-- Settles O5: the case split over the rows of the decoder is `exec_status_elsewhere`. -/
theorem decoderRowsArePure : Obligations.DecoderRowsArePure := by
  unfold Obligations.DecoderRowsArePure
  exact fun _ _ _ _ => exec_status_elsewhere

/-- Settles O30: the row of the state's `P_ARB_ALIAS` takes the error exit, the other one shows nothing. -/
theorem arbitrationRowsRaise : Obligations.ArbitrationRowsRaise := by
  unfold Obligations.ArbitrationRowsRaise
  intro s b hp hlost
  have hown := exec_arbitrationLost s b
  rw [hlost, lostArbitration_shown (by simpa using hp)] at hown
  have hother := exec_arbitrationLost_otherAlias s b
  refine ⟨fun halias => ?_, fun halias => ?_⟩ <;> rw [halias] at hown hother <;> exact ⟨hown, hother⟩

end Sys2Proof.Proofs

/-! PROOFS of 41_bus_primitives.md: the rows that write the port (R121, R122, R125, R129, R130, R132), no repeated start
(R133), the outputs of the decoder as branches (R124, R126, R128), and the step at each status read (R124, R126, R131,
R135). A step at a status read is the read (`snapStatus_eq`) and one function of its byte, `afterTestIdle`, `afterTestWif` or
`afterTestArbStop`; the quiescence reads are an induction on the answers (`run_quiesceOrExit`). -/

namespace Sys2Proof.Proofs

open Sys2Proof.Machine Sys2Proof.Safety

/-! ### What follows a write of the port -/

/-- An access away from its position moves nothing (log 15). -/
theorem returnTo_eq_ite (s : State) (p : Pos) (next : State → State) :
    s.returnTo p next = if s.pos ≠ p then s else next s :=
  (ite_not _ _ _).symm

/-- A handover that only moves the position. -/
theorem returnTo_goto (s : State) (p p' : Pos) :
    s.returnTo p (fun t => t.goto p') = s.goto (if s.pos = p then p' else s.pos) := by
  unfold State.returnTo
  split
  · rfl
  · rfl

theorem afterSendAddr_eq_ite (s : State) :
    s.afterSendAddr =
      if s.op ≠ .read then s.goto .waitWif
      else if s.len = 0 then s.enterStop
      else { s with phase := .read, k := 0, pos := .pollRead } :=
  (ite_not _ _ _).symm

theorem afterStop_eq_ite (s : State) :
    s.afterStop =
      if s.op ≠ .read then s.goto .arbCheck
      else if 0 < s.cfg.quiesceReads then { s with q := 0, pos := .quiesce }
      else { s with q := 0, pos := .enRestore .ok } :=
  (ite_not _ _ _).symm

theorem afterRestore_at {s : State} {r : TxResult} (hp : s.pos = .enRestore r) : s.afterRestore = s.goto (.complete r) := by
  simp [State.afterRestore, hp]

theorem afterRestore_elsewhere {s : State} (hp : ∀ r, s.pos ≠ .enRestore r) : s.afterRestore = s := by
  obtain ⟨r, hr, -⟩ | ⟨-, h⟩ := afterRestore_cases s
  · exact absurd hr (hp r)
  · exact h

/-! ### An output of the decoder where it is tested -/

theorem onOutput_taken {s : State} {shown : Bool} {p : Pos} (taken : State → State) (hs : shown = true) (hp : s.pos = p) :
    s.onOutput shown p taken = taken s :=
  if_pos ⟨hs, hp⟩

/-- The error of a NACK as one conditional: `PartialTransmit(k)` for a data byte before the last (R164). -/
theorem nackError_eq_ite (s : State) :
    s.nackError = if s.phase ≠ .address ∧ s.k + 1 < s.len then .partialTransmit s.k else .nack := by
  obtain ⟨hphase, hk, h⟩ | ⟨haway, h⟩ := nackError_cases s
  · rw [h, if_pos ⟨hphase, hk⟩]
  · rw [h, if_neg (by tauto)]

/-- An acknowledged byte is classified by its two other outputs (R128). -/
theorem classify_of_ack {c : Config} {b : Byte} (hack : ackState c b = .ack) :
    classify c b =
      if arbitrationLost c b then .arbLost else if Machine.clockHeld c b then .proceed else .arbLost :=
  if_neg (by simp [hack])

/-! ### The step at a status read

Of the state only the operation and the position count here, so these hold off the path too, where `stepRunning_advance`
says nothing. -/

/-- A status read whose answer is listed. -/
theorem snapStatus_eq {s : State} {b : Byte} {rest : List Byte} (h : s.answers = b :: rest) :
    s.snapStatus =
      { s with snap := b, answers := rest, draws := s.draws + 1, trace := s.trace ++ [.read .status b] } := by
  simp [State.snapStatus, State.afterRead, answer_cons s b rest h, h]

theorem stepRunning_waitIdle {s : State} (ht : transferring s) (hp : s.pos = .waitIdle) :
    stepRunning s = .next (afterTestIdle s.snapStatus) := by
  have hsettle : settle maxTests (s.snapStatus.goto .testIdle) = .next (afterTestIdle s.snapStatus) :=
    settle_testIdle 3 rfl
  obtain hop | hop := ht
  · refine stepRunning_of_tests (fetch_write hop (by rw [hp]; rfl)) ?_ hsettle
    simp [exec_write, execWrite, State.canAccept, hop, hp]
  · refine stepRunning_of_tests (fetch_read hop (by rw [hp]; rfl)) ?_ hsettle
    simp [exec_read, execRead, State.canAccept, hop, hp]

theorem stepRunning_waitWif {s : State} (hop : s.op = .write) (hp : s.pos = .waitWif) :
    stepRunning s = .next (afterTestWif s.snapStatus) := by
  have hsettle : settle maxTests (s.snapStatus.goto .testWif) = .next (afterTestWif (s.snapStatus.goto .testWif)) :=
    settle_testWif 0 rfl
  rw [afterTestWif, classified_goto] at hsettle
  refine stepRunning_of_tests (fetch_write hop (by rw [hp]; rfl)) ?_ hsettle
  simp [exec_write, execWrite, State.canAccept, hop, hp]

theorem stepRunning_arbCheck {s : State} (hop : s.op = .write) (hp : s.pos = .arbCheck) :
    stepRunning s = .next (afterTestArbStop s.snapStatus) := by
  have hsettle : settle maxTests (s.snapStatus.goto .testArbStop) = .next (afterTestArbStop s.snapStatus) :=
    settle_testArbStop 3 rfl
  refine stepRunning_of_tests (fetch_write hop (by rw [hp]; rfl)) ?_ hsettle
  simp [exec_write, execWrite, State.canAccept, hop, hp]

theorem stepRunning_quiesce {s : State} (hop : s.op = .read) (hp : s.pos = .quiesce) :
    stepRunning s = .next s.quiesceRead := by
  refine stepRunning_of_exec (fetch_read hop (by rw [hp]; rfl)) ?_ (query_quiesceOrExit _)
  simp [exec_read, execRead, State.canAccept, hop, hp]

/-- Without WIF the wait stands where it stood; with it the verdict of `CLASSIFY` is carried out (R126, R128). -/
theorem afterTestWif_at_waitWif {s : State} (hp : s.pos = .waitWif) :
    afterTestWif s = if wif s.cfg s.snap = false then s else classified s (classify s.cfg s.snap) := by
  unfold afterTestWif
  rw [goto_self s _ hp]
  cases wif s.cfg s.snap <;> rfl

/-! ### The quiescence reads -/

theorem run_of_step {s t : State} (n : Nat) (h : step s = .next t) : run (n + 1) s = run n t := by
  rw [run, h]

/-- One quiescence read whose answer is listed; the test of the loop follows. -/
theorem quiesceRead_eq {s : State} {b : Byte} {rest : List Byte} (h : s.answers = b :: rest) :
    s.quiesceRead =
      { s with
        snap := b, answers := rest, draws := s.draws + 1, trace := s.trace ++ [.read .status b],
        q := s.q + 1 : State }.quiesceOrExit := by
  rw [State.quiesceRead, snapStatus_eq h]

/-- From the test of the quiescence loop on, the reads that are still missing are made, one per answer, and the normal exit
follows (R131). -/
theorem run_quiesceOrExit {s : State} (l : List Byte) {rest : List Byte} (hr : s.resetIn = false) (hop : s.op = .read)
    (ha : s.answers = l ++ rest) (hq : s.q + l.length = s.cfg.quiesceReads) :
    run l.length s.quiesceOrExit = .next { s with
      pos := .enRestore .ok
      q := s.cfg.quiesceReads
      snap := l.getLastD s.snap
      answers := rest
      draws := s.draws + l.length
      trace := s.trace ++ l.map (fun b => PortAccess.read .status b) } := by
  induction l generalizing s with
  | nil =>
    have hdone : s.q = s.cfg.quiesceReads := hq
    have hexit : s.quiesceOrExit = s.goto (.enRestore .ok) := if_neg (by omega)
    have hrest : s.answers = rest := ha
    rw [hexit, ← hdone, ← hrest]
    simp [run, State.goto]
  | cons b l ih =>
    rw [List.length_cons] at hq
    have hmore : s.quiesceOrExit = s.goto .quiesce := if_pos (by omega)
    have hstep : step (s.goto .quiesce) = .next (s.goto .quiesce).quiesceRead :=
      (step_running (s.goto .quiesce) hr).trans (stepRunning_quiesce (s := s.goto .quiesce) hop rfl)
    rw [quiesceRead_eq (s := s.goto .quiesce) (rest := l ++ rest) ha] at hstep
    rw [hmore, List.length_cons, run_of_step _ hstep]
    refine (ih ?_ ?_ ?_ ?_).trans ?_
    · exact hr
    · exact hop
    · rfl
    · exact (Nat.add_right_comm s.q 1 l.length).trans hq
    · simp [List.getLast?_cons, Nat.add_assoc, Nat.add_comm 1]

/-! ### The obligations -/

/-- Settles O22: `REPSTART` has one meaning, its refusal; a CMD write of a step is an allowed one (O49), and those are 0x00,
0x02 and 0x03. -/
theorem repeatedStartIsNeverIssued : Obligations.RepeatedStartIsNeverIssued := by
  unfold Obligations.RepeatedStartIsNeverIssued
  refine ⟨fun _ => rfl, fun s t hstep v htrace => ?_⟩
  obtain ⟨l, hl, hallowed⟩ := onlyAllowedAccesses s t hstep
  obtain rfl : [PortAccess.write .cmd v] = l := List.append_cancel_left (htrace.symm.trans hl)
  obtain ⟨hv, -⟩ := hallowed _ (List.mem_singleton.mpr rfl)
  obtain ⟨-, rfl⟩ | ⟨-, rfl⟩ | ⟨-, rfl⟩ := hv <;> decide

/-- Settles O34: the read, and `afterTestIdle` of its byte. -/
theorem waitIdleStep : Obligations.WaitIdleStep := by
  unfold Obligations.WaitIdleStep
  intro s b rest hr ht hp ha
  rw [step_running s hr, stepRunning_waitIdle ht hp, afterTestIdle, goto_self s.snapStatus _ hp, snapStatus_eq ha]
  rfl

/-- Settles O35: the machine's tests are `CLASSIFY` (`settle_testAck`); then verdict by verdict. -/
theorem waitWifStepClassifies : Obligations.WaitWifStepClassifies := by
  unfold Obligations.WaitWifStepClassifies
  intro s b rest hr hop hp ha
  rw [step_running s hr, stepRunning_waitWif hop hp, afterTestWif_at_waitWif (s := s.snapStatus) hp, snapStatus_eq ha]
  cases hv : classify s.cfg b with
  | proceed => rfl
  | nack => rw [classified, nackError_eq_ite]; rfl
  | arbLost => rfl

/-- Settles O37: the read, and `afterTestArbStop` of its byte. -/
theorem arbCheckStep : Obligations.ArbCheckStep := by
  unfold Obligations.ArbCheckStep
  intro s b rest hr hop hp ha
  rw [step_running s hr, stepRunning_arbCheck hop hp, snapStatus_eq ha]
  rfl

/-- Settles O38: the STOP enters the quiescence loop with no read made, and `run_quiesceOrExit` is the loop. -/
theorem quiescenceReadsAreMade : Obligations.QuiescenceReadsAreMade := by
  unfold Obligations.QuiescenceReadsAreMade
  intro s l rest hr hop hp ha hl
  have hstop : (s.portWrite .cmd 0x03).afterStop = { s.portWrite .cmd 0x03 with q := 0 }.quiesceOrExit := if_pos hop
  have hstep : step s = .next { s.portWrite .cmd 0x03 with q := 0 }.quiesceOrExit := by
    rw [step_running s hr, stepRunning_command (.inr (.inr hp)), advance, hp, advanceFrom, hstop]
  rw [Nat.add_comm, run_of_step _ hstep]
  refine (run_quiesceOrExit (s := { s.portWrite .cmd 0x03 with q := 0 }) l hr hop ha ((Nat.zero_add _).trans hl)).trans ?_
  simp

/-- Settles O4: the tests of `CLASSIFY`, read off in their order. -/
theorem classifyTestsInOrder : Obligations.ClassifyTestsInOrder := by
  unfold Obligations.ClassifyTestsInOrder
  refine fun c b => ⟨fun hnack => if_pos hnack, fun hack hlost => ?_, fun hack hlost hheld => ?_, fun hack hlost hheld => ?_⟩
  · simp [classify_of_ack hack, hlost]
  · simp [classify_of_ack hack, hlost, hheld]
  · simp [classify_of_ack hack, hlost, hheld]

/-- Settles O20: the write of each command, and where it hands over. -/
theorem responseAndReceiveWriteCommand : Obligations.ResponseAndReceiveWriteCommand := by
  unfold Obligations.ResponseAndReceiveWriteCommand
  refine fun s => ⟨?_, ?_, ?_⟩
  · exact congrArg Host.Outcome.next (returnTo_goto (s.portWrite .cmd 0x00) .respond .recvNext)
  · exact congrArg Host.Outcome.next (returnTo_goto (s.portWrite .cmd 0x04) .respond .recvNext)
  · exact congrArg Host.Outcome.next (returnTo_eq_ite (s.portWrite .cmd 0x02) .recvNext State.afterRecvNext)

/-- Settles O21: the write of STOP, and at its position `afterStop`. -/
theorem stopWritesCommand : Obligations.StopWritesCommand := by
  unfold Obligations.StopWritesCommand
  intro s
  have h := returnTo_eq_ite (s.portWrite .cmd 0x03) .issueStop State.afterStop
  rw [afterStop_eq_ite] at h
  exact congrArg Host.Outcome.next h

/-- Settles O23: both rows are one write of ADDR, and at its position `afterSendAddr`. -/
theorem addressRowsSendAddress : Obligations.AddressRowsSendAddress := by
  unfold Obligations.AddressRowsSendAddress
  intro s a i v hrow
  have hexec : exec i s = .next ((s.portWrite .addr v).returnTo .sendAddr State.afterSendAddr) := by
    simp only [List.mem_cons, Prod.mk.injEq, List.not_mem_nil, or_false] at hrow
    obtain ⟨rfl, rfl⟩ | ⟨rfl, rfl⟩ := hrow <;> rfl
  rw [hexec, returnTo_eq_ite, afterSendAddr_eq_ite]
  rfl

/-- Settles O24: the write of CTRLA, and what each row hands over to. -/
theorem enableIsSetAndRestored : Obligations.EnableIsSetAndRestored := by
  unfold Obligations.EnableIsSetAndRestored
  refine fun s => ⟨fun e => ?_, fun e => ?_⟩
  · exact congrArg Host.Outcome.next (returnTo_goto (s.portWrite .ctrla (e ++ (1 : BitVec 1))) .enSet .waitIdle)
  · have hexec : exec (.enRestore e) s = .next (s.portWrite .ctrla e).afterRestore := rfl
    rw [hexec]
    split
    next r hp => rw [afterRestore_at (s := s.portWrite .ctrla e) hp]; rfl
    next hp => rw [afterRestore_elsewhere (s := s.portWrite .ctrla e) hp]; rfl

/-- Settles O25: the step at the entry and at an exit, as `advance` gives it. -/
theorem stepsWriteTheSavedEnable : Obligations.StepsWriteTheSavedEnable := by
  unfold Obligations.StepsWriteTheSavedEnable
  refine fun s hr => ⟨fun hp => ?_, fun r hp => ?_⟩
  · rw [step_running s hr, stepRunning_enSet hp, advance, hp]
    rfl
  · rw [step_running s hr, stepRunning_enRestore hp, advance, hp]
    rfl

/-- Settles O27: each row's byte shows its output, so its branch is taken at the test. -/
theorem onlyIdleEndsTheWait : Obligations.OnlyIdleEndsTheWait := by
  unfold Obligations.OnlyIdleEndsTheWait
  intro s b hp
  have hwait : ∀ {v}, busState s.cfg b = v → s.keepWaiting (busState s.cfg b == v) = s.goto .waitIdle := fun hv =>
    onOutput_taken _ (beq_iff_eq.mpr hv) hp
  exact ⟨fun hv => congrArg Host.Outcome.next (onOutput_taken _ (beq_iff_eq.mpr hv) hp),
    fun hv => congrArg Host.Outcome.next (hwait hv), fun hv => congrArg Host.Outcome.next (hwait hv),
    fun hv => congrArg Host.Outcome.next (hwait hv), fun hv => congrArg Host.Outcome.next (hwait hv)⟩

/-- Settles O28: the flag is shown, so its branch is taken at the test. -/
theorem interruptFlagsEndTheirPolls : Obligations.InterruptFlagsEndTheirPolls := by
  unfold Obligations.InterruptFlagsEndTheirPolls
  exact fun s b => ⟨fun hp hwif => congrArg Host.Outcome.next (onOutput_taken _ hwif hp),
    fun hp hrif => congrArg Host.Outcome.next (onOutput_taken _ hrif hp)⟩

/-- Settles O29: each row's branch is taken at its test: the next test, the error of the byte's place, or PROCEED. -/
theorem classificationRowsBranch : Obligations.ClassificationRowsBranch := by
  unfold Obligations.ClassificationRowsBranch
  refine fun s b => ⟨fun hp hack => ?_, fun hp hnack => ?_, fun hp hheld => ?_⟩
  · exact congrArg Host.Outcome.next (onOutput_taken _ (beq_iff_eq.mpr hack) hp)
  · rw [← nackError_eq_ite]
    exact congrArg Host.Outcome.next (onOutput_taken _ (beq_iff_eq.mpr hnack) hp)
  · exact congrArg Host.Outcome.next (onOutput_taken _ hheld hp)

end Sys2Proof.Proofs

/-! PROOFS of 42_transactions.md, the single accesses: acceptance (R150), the rows of each request (R152, R161, R170), the
results (R151), a read's poll (R173), the table of phases (R176), and the request interface of a busy block (R63, R150). -/

namespace Sys2Proof.Proofs

open Sys2Proof.Machine Sys2Proof.Safety

/-! ### Acceptance, and requests that wait (R150) -/

theorem canAccept_of_idle {s : State} (hphase : s.phase = .idle) (hop : s.op = .none) : s.canAccept = true :=
  (canAccept_iff s).mpr ⟨hphase, hop⟩

theorem not_canAccept_of_busy {s : State} (hop : s.op ≠ .none) : ¬ s.canAccept = true := fun h =>
  hop ((canAccept_iff s).mp h).2

/-- Settles O12: each request takes its accepting branch. -/
theorem acceptanceCopiesOperands : Obligations.AcceptanceCopiesOperands := by
  unfold Obligations.AcceptanceCopiesOperands
  intro s a bytes hphase hop
  have hfree := canAccept_of_idle hphase hop
  exact ⟨if_pos hfree, if_pos hfree, if_pos hfree⟩

/-- Settles O13: neither the accepting branch nor the one of the request in progress is taken. -/
theorem requestsWaitWhileBusy : Obligations.RequestsWaitWhileBusy := by
  unfold Obligations.RequestsWaitWhileBusy
  intro s a bytes hop
  have hbusy := not_canAccept_of_busy hop
  exact ⟨fun h => (if_neg hbusy).trans (if_neg h), fun h => (if_neg hbusy).trans (if_neg h),
    fun h => (if_neg hbusy).trans (if_neg h)⟩

/-! ### The accesses a request makes itself (R152, R161, R170) -/

theorem exec_configure_hold {s : State} (hop : s.op = .configure) (hp : s.pos = .hold) :
    exec .configure s = .next ((s.portWrite .hold s.cfg.hold).goto .baud) := by
  simp [exec_configure, execConfigure, State.canAccept, hop, hp]

theorem exec_configure_baud {s : State} (hop : s.op = .configure) (hp : s.pos = .baud) :
    exec .configure s = .next ((s.portWrite .baud s.cfg.baud).goto .forceIdle) := by
  simp [exec_configure, execConfigure, State.canAccept, hop, hp]

theorem exec_configure_forceIdle {s : State} (hop : s.op = .configure) (hp : s.pos = .forceIdle) :
    exec .configure s = .next ((s.portWrite .status (forceIdleByte s.cfg)).goto (.complete .ok)) := by
  simp [exec_configure, execConfigure, State.canAccept, hop, hp]

theorem exec_write_enSave {s : State} (a : Byte) (d : List Byte) (hop : s.op = .write) (hp : s.pos = .enSave) :
    exec (.write a d) s = .next s.enSave := by
  simp [exec_write, execWrite, State.canAccept, hop, hp]

/-- The status reads of a WRITE, each with the test that follows it (41_bus_primitives.md R124, R126, R135). -/
theorem exec_write_snap {s : State} (a : Byte) (d : List Byte) {p t : Pos} (hop : s.op = .write)
    (hpt : (p, t) ∈ [(Pos.waitIdle, Pos.testIdle), (.waitWif, .testWif), (.arbCheck, .testArbStop)]) (hp : s.pos = p) :
    exec (.write a d) s = .next (s.snapStatus.goto t) := by
  simp only [List.mem_cons, Prod.mk.injEq, List.not_mem_nil, or_false] at hpt
  obtain ⟨rfl, rfl⟩ | ⟨rfl, rfl⟩ | ⟨rfl, rfl⟩ := hpt <;> simp [exec_write, execWrite, State.canAccept, hop, hp]

theorem exec_write_putByte {s : State} (a : Byte) (d : List Byte) {b : Byte} (hop : s.op = .write) (hp : s.pos = .putByte)
    (hb : s.data[s.k]? = some b) : exec (.write a d) s = .next ((s.portWrite .data b).goto .waitWif) := by
  simp [exec_write, execWrite, State.canAccept, hop, hp, hb]

theorem exec_read_enSave {s : State} (a : Byte) (b : List Byte) (hop : s.op = .read) (hp : s.pos = .enSave) :
    exec (.read a b) s = .next s.enSave := by
  simp [exec_read, execRead, State.canAccept, hop, hp]

/-- The status reads of a READ that are tested (41_bus_primitives.md R124; R173). -/
theorem exec_read_snap {s : State} (a : Byte) (b : List Byte) {p t : Pos} (hop : s.op = .read)
    (hpt : (p, t) ∈ [(Pos.waitIdle, Pos.testIdle), (.pollRead, .testArbRead)]) (hp : s.pos = p) :
    exec (.read a b) s = .next (s.snapStatus.goto t) := by
  simp only [List.mem_cons, Prod.mk.injEq, List.not_mem_nil, or_false] at hpt
  obtain ⟨rfl, rfl⟩ | ⟨rfl, rfl⟩ := hpt <;> simp [exec_read, execRead, State.canAccept, hop, hp]

theorem exec_read_readData {s : State} (a : Byte) (b : List Byte) (hop : s.op = .read) (hp : s.pos = .readData)
    (hk : s.k < s.buf.length) : exec (.read a b) s = .next s.captureData := by
  simp [exec_read, execRead, State.canAccept, hop, hp, hk]

theorem exec_read_quiesce {s : State} (a : Byte) (b : List Byte) (hop : s.op = .read) (hp : s.pos = .quiesce) :
    exec (.read a b) s = .next s.quiesceRead := by
  simp [exec_read, execRead, State.canAccept, hop, hp]

theorem quiesceOrExit_eq_goto (s : State) :
    s.quiesceOrExit = s.goto (if s.q < s.cfg.quiesceReads then .quiesce else .enRestore .ok) :=
  (apply_ite s.goto _ _ _).symm

/-- Settles O14: the request in progress makes the write of its position. -/
theorem configureMakesItsWrites : Obligations.ConfigureMakesItsWrites := by
  unfold Obligations.ConfigureMakesItsWrites
  exact fun s hop => ⟨exec_configure_hold hop, exec_configure_baud hop, exec_configure_forceIdle hop⟩

/-- Settles O16: one access at each position, `EN_SAVE`, a `SNAP` or `PUT_BYTE`. -/
theorem writeMakesItsAccesses : Obligations.WriteMakesItsAccesses := by
  unfold Obligations.WriteMakesItsAccesses
  exact fun s a bytes hop => ⟨exec_write_enSave a bytes hop, fun p t => exec_write_snap a bytes hop,
    fun b => exec_write_putByte a bytes hop⟩

/-- Settles O17: one access at each position; the quiescence read's position follows from the count. -/
theorem readMakesItsAccesses : Obligations.ReadMakesItsAccesses := by
  unfold Obligations.ReadMakesItsAccesses
  refine fun s a bytes hop => ⟨exec_read_enSave a bytes hop, fun p t => exec_read_snap a bytes hop,
    exec_read_readData a bytes hop, fun hp => ?_⟩
  rw [exec_read_quiesce a bytes hop hp, State.quiesceRead, quiesceOrExit_eq_goto]
  rfl

/-! ### The results (R151) -/

/-- Settles O19: each result row is `finish` of its result. -/
theorem resultRowsFinish : Obligations.ResultRowsFinish := by
  unfold Obligations.ResultRowsFinish
  rintro s buffer rfl
  exact ⟨rfl, rfl, fun _ => rfl, rfl⟩

/-! ### CONFIGURE as a whole (R152) -/

theorem onPath_of_ready {s : State} (h : Ready s) : OnPath s := .of_idle h.pos h.op h.phase

/-- The acceptance, as a step of an idle block. -/
theorem step_accept {s : State} {r : Request} {rest : List Request} {i : Instr} (h : Ready s) (hr : s.requests = r :: rest)
    (hd : decodeRequest s.cfg r = .ok i) : step s = .next (accept s i) :=
  (step_running s h.noReset).trans (stepRunning_accept (onPath_of_ready h).position h.pos hr hd)

/-- The step of an operation in progress. -/
theorem step_advance {s : State} (h : OnPath s) (hr : s.resetIn = false) (hne : s.pos ≠ .idle) :
    step s = .next (advance s) :=
  (step_running s hr).trans (stepRunning_advance h hne)

theorem onPath_advance {s : State} (h : OnPath s) : OnPath (advance s) := h.of_advances (advance_advances h.position)

theorem advance_at {s : State} {p : Pos} (hp : s.pos = p) : advance s = advanceFrom s p := by rw [advance, hp]

/-- The step of an operation in progress, at a position that is known. -/
theorem step_at {s : State} (p : Pos) (h : OnPath s) (hr : s.resetIn = false) (hp : s.pos = p) (hne : p ≠ .idle) :
    step s = .next (advanceFrom s p) :=
  advance_at hp ▸ step_advance h hr (hp ▸ hne)

theorem onPath_at {s : State} (p : Pos) (h : OnPath s) (hp : s.pos = p) : OnPath (advanceFrom s p) :=
  advance_at hp ▸ onPath_advance h

/-- Settles O15: the acceptance and four steps of the operation, through the positions of R152. -/
theorem configureTransaction : Obligations.ConfigureTransaction := by
  unfold Obligations.ConfigureTransaction
  intro s rest hready hreq
  have hr := hready.noReset
  have haccept : step s = .next s.acceptConfigure := step_accept (i := .configure) hready hreq rfl
  have h₀ : OnPath s.acceptConfigure :=
    accept_onPath (i := .configure) (r := { header := 0x00, operands := none }) (onPath_of_ready hready) hready.pos rfl
  have h₁ := onPath_at .hold h₀ rfl
  have h₂ := onPath_at .baud h₁ rfl
  have h₃ := onPath_at .forceIdle h₂ rfl
  have s₀ := step_at .hold h₀ hr rfl nofun
  have s₁ := step_at .baud h₁ (by simp [advanceFrom, hr]) rfl nofun
  have s₂ := step_at .forceIdle h₂ (by simp [advanceFrom, hr]) rfl nofun
  have s₃ := step_at (.complete .ok) h₃ (by simp [advanceFrom, hr]) rfl nofun
  rw [run_of_step 4 haccept, run_of_step 3 s₀, run_of_step 2 s₁, run_of_step 1 s₂, run_of_step 0 s₃, run]
  simp [advanceFrom, State.finish, State.delivery, resultCode, resultIndex, State.goto, State.portWrite,
    State.acceptConfigure, State.takeRequest, hready.pos, hready.phase, hready.op, hreq, forceIdleByte]

/-! ### One iteration of a read's poll (R173, R196) -/

theorem stepRunning_pollRead {s : State} (hop : s.op = .read) (hp : s.pos = .pollRead) :
    stepRunning s = .next (afterTestRead s.snapStatus) := by
  have hsettle : settle maxTests (s.snapStatus.goto .testArbRead) = .next (afterTestRead s.snapStatus) :=
    settle_testArbRead 2 rfl
  exact stepRunning_of_tests (fetch_read hop (by rw [hp]; rfl))
    (exec_read_snap _ _ hop (.tail _ (.head _)) hp) hsettle

/-- Settles O36: the read, and `afterTestRead` of its byte. -/
theorem readPollStep : Obligations.ReadPollStep := by
  unfold Obligations.ReadPollStep
  intro s b rest hr hop hp ha
  rw [step_running s hr, stepRunning_pollRead hop hp, afterTestRead, afterTestRif, goto_self s.snapStatus .pollRead hp,
    snapStatus_eq ha]
  rfl

/-! ### The phases (R176) -/

theorem transition_busAcquire {o : Op} (h : o = .write ∨ o = .read) :
    transition o .idle .busAcquire ∧ transition o .busAcquire .address := by
  obtain rfl | rfl := h <;> exact ⟨trivial, trivial⟩

/-- Every exit of a WRITE or a READ leads to IDLE from a phase that has such a row. -/
theorem transition_of_exitOk {s : State} {r : TxResult} (h : exitOk s r) : transition s.op s.phase .idle := by
  cases r with
  | ok => obtain ⟨hop, hphase, -⟩ | ⟨hop | hop, hphase⟩ := h <;> rw [hop, hphase] <;> trivial
  | err e =>
    cases e with
    | nack => rw [h.1, h.2]; trivial
    | partialTransmit k => rw [h.1, h.2.1]; trivial
    | arbitrationLost => obtain ⟨hop | hop, hphase⟩ := h <;> rw [hop, hphase] <;> trivial

theorem classified_transition {s : State} (h : sending s) (v : Verdict) :
    (classified s v).phase = s.phase ∨ transition s.op s.phase (classified s v).phase := by
  obtain ⟨hop, hphase⟩ := h
  have herror : transition s.op s.phase .error := by
    obtain hphase | ⟨hphase, -⟩ := hphase <;> rw [hop, hphase] <;> trivial
  cases v with
  | nack => exact .inr herror
  | arbLost => exact .inr herror
  | proceed =>
    rw [classified]
    obtain ⟨hph, -, h⟩ | ⟨hph, -, h⟩ | ⟨hph, -, h⟩ | ⟨hph, -, h⟩ := proceed_cases s <;> rw [h]
    · exact .inl rfl
    · exact .inr (by rw [hop, hph]; trivial)
    · exact .inl rfl
    · exact .inr (by rw [hop, (hphase.resolve_left hph).1]; trivial)

theorem afterSendAddr_transition {s : State} (hphase : s.phase = .address) :
    s.afterSendAddr.phase = s.phase ∨ transition s.op s.phase s.afterSendAddr.phase := by
  obtain ⟨hop, -, h⟩ | ⟨hop, -, h⟩ | ⟨-, h⟩ := afterSendAddr_cases s <;> rw [h]
  · exact .inr (by rw [hop, hphase]; trivial)
  · exact .inr (by rw [hop, hphase]; trivial)
  · exact .inl rfl

theorem afterTestRead_transition {s : State} (h : receiving s) :
    (afterTestRead s).phase = s.phase ∨ transition s.op s.phase (afterTestRead s).phase := by
  obtain ⟨hop, hphase, -⟩ := h
  unfold afterTestRead afterTestRif
  split
  · exact .inr (by rw [hop, hphase]; trivial)
  · split
    · exact .inl rfl
    · exact .inl rfl

theorem afterRecvNext_transition {s : State} (h : receiving s) :
    s.afterRecvNext.phase = s.phase ∨ transition s.op s.phase s.afterRecvNext.phase := by
  obtain ⟨hop, hphase, -⟩ := h
  obtain ⟨-, h⟩ | ⟨-, h⟩ := afterRecvNext_cases s <;> rw [h]
  · exact .inl rfl
  · exact .inr (by rw [hop, hphase]; trivial)

@[simp] theorem quiesceOrExit_phase (s : State) : s.quiesceOrExit.phase = s.phase := by
  rw [quiesceOrExit_eq_goto, goto_phase]

@[simp] theorem afterStop_phase (s : State) : s.afterStop.phase = s.phase := by
  obtain ⟨-, h⟩ | ⟨-, h⟩ := afterStop_cases s <;> rw [h]
  · exact quiesceOrExit_phase _
  · rfl

theorem afterTestIdle_transition {s : State} (hop : transferring s) (hphase : s.phase = .busAcquire) :
    (afterTestIdle s).phase = s.phase ∨ transition s.op s.phase (afterTestIdle s).phase := by
  unfold afterTestIdle
  split
  · exact .inr (hphase ▸ (transition_busAcquire hop).2)
  · exact .inl rfl

theorem afterTestWif_transition {s : State} (h : sending s) :
    (afterTestWif s).phase = s.phase ∨ transition s.op s.phase (afterTestWif s).phase := by
  unfold afterTestWif
  split
  · exact classified_transition h _
  · exact .inl rfl

theorem afterTestArbStop_transition {s : State} (hop : s.op = .write) (hphase : s.phase = .stop) :
    (afterTestArbStop s).phase = s.phase ∨ transition s.op s.phase (afterTestArbStop s).phase := by
  unfold afterTestArbStop
  split
  · exact .inr (by rw [hop, hphase]; trivial)
  · exact .inl rfl

/-- An operation in progress changes the phase by the rows of its table only. -/
theorem advance_transition {s : State} (h : posOk s) :
    (advance s).phase = s.phase ∨ transition s.op s.phase (advance s).phase := by
  have hat : ∀ {p}, s.pos = p → posOk (s.goto p) := posOk_at h
  unfold advance
  cases hp : s.pos with
  | idle | hold | baud | forceIdle | enSet | putByte | readData | respond | enRestore => exact .inl rfl
  | enSave =>
    obtain ⟨hop, hphase⟩ : transferring s ∧ s.phase = .idle := hat hp
    exact .inr (hphase ▸ (transition_busAcquire hop).1)
  | waitIdle => exact afterTestIdle_transition (s := s.snapStatus) (hat hp).1 (hat hp).2
  | sendAddr => exact afterSendAddr_transition (s := s.portWrite _ _) (hat hp).2
  | waitWif => exact afterTestWif_transition (s := s.snapStatus) (hat hp)
  | issueStop => exact .inl (afterStop_phase _)
  | arbCheck => exact afterTestArbStop_transition (s := s.snapStatus) (hat hp).1 (hat hp).2
  | pollRead => exact afterTestRead_transition (s := s.snapStatus) (hat hp)
  | recvNext => exact afterRecvNext_transition (s := s.portWrite _ _) (hat hp)
  | quiesce => exact .inl (quiesceOrExit_phase _)
  | complete r =>
    obtain hexit | ⟨-, -, hphase⟩ : exitOk s r ∨ (r = .ok ∧ s.op = .configure ∧ s.phase = .idle) := hat hp
    · exact .inr (transition_of_exitOk hexit)
    · exact .inl hphase.symm
  | _ => exact (hat hp).elim

/-- Acceptance leaves the phase IDLE: EN_SAVE is the first access (R176). -/
theorem accept_phase {c : Config} {r : Request} {i : Instr} (s : State) (hd : decodeRequest c r = .ok i) :
    (accept s i).phase = s.phase := by
  obtain rfl | ⟨a, l, rfl, -⟩ | ⟨a, l, rfl, -⟩ := decodeRequest_ok_cases hd <;> rfl

/-- Settles O50: an acceptance keeps the phase, and an operation in progress follows its table. -/
theorem phaseFollowsTheTable : Obligations.PhaseFollowsTheTable := by
  unfold Obligations.PhaseFollowsTheTable
  intro s t hinv hr hstep
  rw [step_running s hr] at hstep
  cases stepRunning_of_onPath ((invariant_iff s).mp hinv).1 with
  | advances _ hnext => cases hnext.symm.trans hstep; exact advance_transition hinv.position
  | waits _ _ hnext => cases hnext.symm.trans hstep; exact .inl rfl
  | accepts _ _ decodes hnext => cases hnext.symm.trans hstep; exact .inl (accept_phase s decodes)
  | refuses _ _ _ hnext => cases hnext.symm.trans hstep

/-! ### What is presented to a busy block (R63, R150)

The step away from the request interface commutes with presenting other requests: shown for each shared operation, then
each instruction, the tests and the fetch. -/

/-- The same block with the requests `l` presented to it. -/
abbrev presenting (l : List Request) (s : State) : State := { s with requests := l }

/-- An outcome whose next state, if it has one, is changed by `f`. -/
def onNext (f : State → State) : Host.Outcome State Fault Refusal → Host.Outcome State Fault Refusal
  | .next s => .next (f s)
  | .fault e => .fault e
  | .refused r => .refused r

/-- The operation does not look at the request interface. -/
def Blind (l : List Request) (f : State → State) : Prop := ∀ s, f (presenting l s) = presenting l (f s)

section

variable {l : List Request}

theorem goto_blind (p : Pos) : Blind l fun s => s.goto p := fun _ => rfl

theorem enterAddress_blind : Blind l State.enterAddress := fun _ => rfl

theorem raiseNack_blind : Blind l fun s => s.raise s.nackError := fun _ => rfl

theorem afterSendAddr_blind : Blind l State.afterSendAddr := fun s => by
  unfold State.afterSendAddr
  dsimp only
  split_ifs <;> rfl

theorem proceed_blind : Blind l State.proceed := fun s => by
  unfold State.proceed
  dsimp only
  split_ifs <;> rfl

theorem afterRecvNext_blind : Blind l State.afterRecvNext := fun s => by
  unfold State.afterRecvNext
  dsimp only
  split_ifs <;> rfl

theorem quiesceOrExit_blind : Blind l State.quiesceOrExit := fun s => by
  rw [quiesceOrExit_eq_goto, quiesceOrExit_eq_goto]
  rfl

theorem quiesceRead_blind : Blind l State.quiesceRead := fun s => quiesceOrExit_blind { s.snapStatus with q := s.q + 1 }

theorem afterStop_blind : Blind l State.afterStop := fun s => by
  obtain ⟨hop, h⟩ | ⟨hop, h⟩ := afterStop_cases s
  · rw [h, State.afterStop, if_pos hop]
    exact quiesceOrExit_blind { s with q := 0 }
  · rw [h, State.afterStop, if_neg hop]
    rfl

theorem afterRestore_blind : Blind l State.afterRestore := fun s => by
  obtain ⟨r, hp, h⟩ | ⟨hp, h⟩ := afterRestore_cases s
  · rw [h, afterRestore_at (s := presenting l s) hp]
    rfl
  · rw [h, afterRestore_elsewhere (s := presenting l s) hp]

theorem returnTo_blind (p : Pos) {next : State → State} (h : Blind l next) : Blind l fun s => s.returnTo p next := fun s => by
  obtain ⟨hp, h'⟩ | ⟨hp, h'⟩ := returnTo_cases s p next <;> dsimp only <;> rw [h']
  · exact (if_pos hp).trans (h s)
  · exact if_neg hp

theorem onOutput_blind (shown : Bool) (p : Pos) {taken : State → State} (h : Blind l taken) :
    Blind l fun s => s.onOutput shown p taken := fun s => by
  unfold State.onOutput
  dsimp only
  split_ifs
  · exact h s
  · rfl

theorem lostArbitration_blind (shown : Bool) : Blind l fun s => s.lostArbitration shown := fun s => by
  unfold State.lostArbitration
  dsimp only
  split_ifs <;> rfl

theorem outputFalse_blind : Blind l State.outputFalse := fun s => by
  unfold State.outputFalse
  cases s.pos <;> rfl

theorem onNext_ite {c : Prop} [Decidable c] {f : State → State} {x y x' y' : Host.Outcome State Fault Refusal}
    (hthen : c → x' = onNext f x) (helse : ¬ c → y' = onNext f y) :
    (if c then x' else y') = onNext f (if c then x else y) := by
  split
  next h => exact hthen h
  next h => exact helse h

/-- A request looks at the request interface only where it is accepted. -/
theorem execConfigure_presenting {s : State} (hop : s.op ≠ .none) :
    execConfigure (presenting l s) = onNext (presenting l) (execConfigure s) :=
  onNext_ite (fun hfree => absurd hfree (not_canAccept_of_busy hop)) fun _ => onNext_ite (fun _ => by
    dsimp only
    cases s.pos <;> rfl) fun _ => rfl

theorem execWrite_presenting {s : State} (a : Byte) (d : List Byte) (hop : s.op ≠ .none) :
    execWrite a d (presenting l s) = onNext (presenting l) (execWrite a d s) :=
  onNext_ite (fun hfree => absurd hfree (not_canAccept_of_busy hop)) fun _ => onNext_ite (fun _ => by
    dsimp only
    cases s.pos with
    | putByte => cases s.data[s.k]? <;> rfl
    | _ => rfl) fun _ => rfl

theorem execRead_presenting {s : State} (a : Byte) (b : List Byte) (hop : s.op ≠ .none) :
    execRead a b (presenting l s) = onNext (presenting l) (execRead a b s) :=
  onNext_ite (fun hfree => absurd hfree (not_canAccept_of_busy hop)) fun _ => onNext_ite (fun _ => by
    dsimp only
    cases s.pos with
    | readData => exact onNext_ite (fun _ => rfl) fun _ => rfl
    | quiesce => exact congrArg Host.Outcome.next (quiesceRead_blind s)
    | _ => rfl) fun _ => rfl

/-- Every instruction commutes with what is presented, a request where it is not accepted. -/
theorem exec_presenting {i : Instr} {s : State} (h : i.format = .req → s.op ≠ .none) :
    exec i (presenting l s) = onNext (presenting l) (exec i s) := by
  cases i with
  | configure => exact execConfigure_presenting (h rfl)
  | write a d => exact execWrite_presenting a d (h rfl)
  | read a b => exact execRead_presenting a b (h rfl)
  | resOk | resNack | resPartialTransmit | resArbitrationLost | repStart => rfl
  | busStateBusError | busStateUnknown | busStateOwner | busStateBusy =>
    exact congrArg Host.Outcome.next (onOutput_blind _ _ (goto_blind _) s)
  | busStateIdle => exact congrArg Host.Outcome.next (onOutput_blind _ _ enterAddress_blind s)
  | readInterruptFlag | writeInterruptFlag | ackStateAck =>
    exact congrArg Host.Outcome.next (onOutput_blind _ _ (goto_blind _) s)
  | clockHeld => exact congrArg Host.Outcome.next (onOutput_blind _ _ proceed_blind s)
  | ackStateNack => exact congrArg Host.Outcome.next (onOutput_blind _ _ raiseNack_blind s)
  | arbitrationLostAliased | arbitrationLostSeparate => exact congrArg Host.Outcome.next (lostArbitration_blind _ s)
  | respondAck | respondNack | enSet =>
    exact congrArg Host.Outcome.next (returnTo_blind _ (goto_blind _) (s.portWrite _ _))
  | recvNext => exact congrArg Host.Outcome.next (returnTo_blind _ afterRecvNext_blind (s.portWrite _ _))
  | stop => exact congrArg Host.Outcome.next (returnTo_blind _ afterStop_blind (s.portWrite _ _))
  | addrWrite | addrRead =>
    exact congrArg Host.Outcome.next (returnTo_blind _ afterSendAddr_blind (s.portWrite _ _))
  | enRestore => exact congrArg Host.Outcome.next (afterRestore_blind (s.portWrite _ _))

theorem settle_presenting (n : Nat) (s : State) :
    settle n (presenting l s) = onNext (presenting l) (settle n s) := by
  induction n generalizing s with
  | zero => rfl
  | succ n ih =>
    cases hq : s.pos.query with
    | none => rw [settle_rest _ _ hq, settle_rest (n + 1) (presenting l s) hq, onNext]
    | some q =>
      rw [settle_test n s q hq, settle_test n (presenting l s) q hq]
      dsimp only
      cases hd : decode s.cfg (.status q s.snap) with
      | error e => exact (congrArg (settle n) (outputFalse_blind s)).trans (ih s.outputFalse)
      | ok i =>
        have hi : encode i = .status q s.snap := encode_of_decode hd
        obtain ⟨u, hu, -⟩ := exec_status_silent s hi
        have hfmt : i.format ≠ .req := by rw [← encode_format, hi]; nofun
        have hu' := exec_presenting (l := l) (s := s) fun h => absurd h hfmt
        rw [hu] at hu'
        simp only [hu, hu', onNext]
        exact ih u

theorem thenSettle_presenting (o : Host.Outcome State Fault Refusal) :
    thenSettle (onNext (presenting l) o) = onNext (presenting l) (thenSettle o) := by
  cases o with
  | next s => exact settle_presenting maxTests s
  | fault f => rfl
  | refused r => rfl

/-- Away from the request interface what is presented is not the message that passes. -/
theorem message_presenting {s : State} (hp : s.pos ≠ .idle) : (presenting l s).message = s.message := by
  unfold State.message
  dsimp only
  cases h : s.pos with
  | idle => exact absurd h hp
  | _ => rfl

theorem fetch_presenting {s : State} (hp : s.pos ≠ .idle) : (presenting l s).fetch = s.fetch := by
  unfold State.fetch
  rw [message_presenting hp]
  rfl

/-- Away from the request interface a request is fetched only by the operation in progress. -/
theorem busy_of_fetch_request {s : State} {i : Instr} (hp : s.pos ≠ .idle) (hf : s.fetch = .instr i)
    (hi : i.format = .req) : s.op ≠ .none := by
  intro hop
  obtain ⟨m, hm, hd⟩ | ⟨-, hown, -⟩ := (fetch_instr_iff s i).mp hf
  · have hreq : m.format = .req := by rw [← encode_of_decode hd, encode_format, hi]
    obtain ⟨hidle, -⟩ | ⟨q, -, rfl⟩ | ⟨r, -, rfl⟩ | ⟨-, -, hne, -⟩ := message_cases hm
    · exact hp hidle
    · cases hreq
    · cases hreq
    · exact hne hreq
  · simp [hop] at hown

/-- The step away from the request interface, with other requests presented. -/
theorem step_presenting {s : State} (hr : s.resetIn = false) (hp : s.pos ≠ .idle) :
    step (presenting l s) = onNext (presenting l) (step s) := by
  rw [step_running s hr, step_running (presenting l s) hr]
  unfold stepRunning
  rw [fetch_presenting hp]
  cases hf : s.fetch with
  | instr i => exact (congrArg thenSettle (exec_presenting (busy_of_fetch_request hp hf))).trans (thenSettle_presenting _)
  | nothing => rfl
  | badRequest e => rfl
  | notShown => exact (congrArg (settle maxTests) (outputFalse_blind s)).trans (settle_presenting maxTests s.outputFalse)
  | offPath => rfl

end

/-- Settles O52: the step commutes with presenting other requests; presenting the same ones shows that they stay. -/
theorem busyBlockIgnoresRequests : Obligations.BusyBlockIgnoresRequests := by
  unfold Obligations.BusyBlockIgnoresRequests
  intro s presented hr hp
  have hany : ∀ l, step (presenting l s) = onNext (presenting l) (step s) := fun l => step_presenting hr hp
  refine ⟨fun t ht => ?_, fun f hf => ?_⟩
  · have hsame : step s = .next (presenting s.requests t) := by rw [hany s.requests, ht, onNext]
    have hkept : t = presenting s.requests t := Host.Outcome.next.inj (ht.symm.trans hsame)
    exact ⟨by rw [hkept], by rw [hany, ht, onNext]⟩
  · rw [hany, hf, onNext]

end Sys2Proof.Proofs

/-! PROOFS of 42_transactions.md, the runs of a request: what each position of a request in progress adds to the trace
(`advanceFrom_continues`), what a run from an idle block can have reached (`progress_of_run`), and from these what every
completing run does to CTRLA (R177), and with no data at all (R166, R175). -/

namespace Sys2Proof.Proofs

open Sys2Proof.Machine Sys2Proof.Safety

/-! ### What a request in progress adds to the trace, and what it leaves -/

/-- The port access of a position of the pseudocode (R152, R161, R170). -/
def accessAt (s : State) : Pos → List PortAccess
  | .hold => [.write .hold s.cfg.hold]
  | .baud => [.write .baud s.cfg.baud]
  | .forceIdle => [.write .status (forceIdleByte s.cfg)]
  | .enSave => [.read .ctrla s.answer]
  | .enSet => [.write .ctrla (enableByte s.savedEn)]
  | .waitIdle => [.read .status s.answer]
  | .sendAddr => [.write .addr (addrByte s.addr s.dir)]
  | .waitWif => [.read .status s.answer]
  | .putByte => [.write .data (s.data.getD s.k 0)]
  | .issueStop => [.write .cmd 0x03]
  | .arbCheck => [.read .status s.answer]
  | .pollRead => [.read .status s.answer]
  | .readData => [.read .data s.answer]
  | .respond => [.write .cmd 0x00]
  | .recvNext => [.write .cmd 0x02]
  | .quiesce => [.read .status s.answer]
  | .enRestore _ => [.write .ctrla s.savedEn]
  | _ => []

/-- From `s` to `t` the request in progress went on: it made the accesses `l`, and its operands, the requests presented and
the results delivered stand as they were. -/
structure Continues (s t : State) (l : List PortAccess) : Prop where
  cfg : t.cfg = s.cfg
  op : t.op = s.op
  addr : t.addr = s.addr
  len : t.len = s.len
  data : t.data = s.data
  requests : t.requests = s.requests
  delivered : t.delivered = s.delivered
  resetIn : t.resetIn = s.resetIn
  trace : t.trace = s.trace ++ l

theorem Continues.refl (s : State) : Continues s s [] where
  cfg := rfl
  op := rfl
  addr := rfl
  len := rfl
  data := rfl
  requests := rfl
  delivered := rfl
  resetIn := rfl
  trace := (List.append_nil _).symm

theorem Continues.trans {s t u : State} {l l' : List PortAccess} (h : Continues s t l) (h' : Continues t u l') :
    Continues s u (l ++ l') where
  cfg := h'.cfg.trans h.cfg
  op := h'.op.trans h.op
  addr := h'.addr.trans h.addr
  len := h'.len.trans h.len
  data := h'.data.trans h.data
  requests := h'.requests.trans h.requests
  delivered := h'.delivered.trans h.delivered
  resetIn := h'.resetIn.trans h.resetIn
  trace := by rw [h'.trace, h.trace, List.append_assoc]

theorem Continues.of_moves {s t u : State} {l : List PortAccess} (h : Continues s t l) (hm : Moves t u) :
    Continues s u l := by
  obtain ⟨_, _, _, _, rfl⟩ := hm
  exact { h with }

theorem portWrite_continues (s : State) (r : PortReg) (v : Byte) : Continues s (s.portWrite r v) [.write r v] :=
  { Continues.refl s with trace := rfl }

theorem snapStatus_continues (s : State) : Continues s s.snapStatus [.read .status s.answer] :=
  { Continues.refl s with trace := rfl }

theorem enSave_continues (s : State) : Continues s s.enSave [.read .ctrla s.answer] :=
  { Continues.refl s with trace := rfl }

theorem captureData_continues (s : State) : Continues s s.captureData [.read .data s.answer] :=
  { Continues.refl s with trace := rfl }

theorem afterTestIdle_moves (s : State) : Moves s (afterTestIdle s) := by
  unfold afterTestIdle
  split
  · exact enterAddress_moves s
  · exact goto_moves s _

theorem classified_moves (s : State) (v : Verdict) : Moves s (classified s v) := by
  cases v with
  | proceed => exact proceed_moves s
  | nack => exact raise_moves s _
  | arbLost => exact raise_moves s _

theorem afterTestWif_moves (s : State) : Moves s (afterTestWif s) := by
  unfold afterTestWif
  split
  · exact classified_moves s _
  · exact goto_moves s _

theorem afterTestArbStop_moves (s : State) : Moves s (afterTestArbStop s) := by
  unfold afterTestArbStop
  split
  · exact raise_moves s _
  · exact goto_moves s _

theorem afterTestRead_moves (s : State) : Moves s (afterTestRead s) := by
  unfold afterTestRead afterTestRif
  split
  · exact raise_moves s _
  · split
    · exact goto_moves s _
    · exact goto_moves s _

/-- Short of its completion, a position makes its access and leaves the request as it is. -/
theorem advanceFrom_continues (s : State) {p : Pos} (hc : ∀ r, p ≠ .complete r) :
    Continues s (advanceFrom s p) (accessAt s p) := by
  cases p with
  | hold | baud | forceIdle | enSet | putByte | respond | enRestore =>
    exact (portWrite_continues s _ _).of_moves (goto_moves _ _)
  | enSave => exact enSave_continues s
  | waitIdle => exact (snapStatus_continues s).of_moves (afterTestIdle_moves _)
  | sendAddr => exact (portWrite_continues s _ _).of_moves (afterSendAddr_moves _)
  | waitWif => exact (snapStatus_continues s).of_moves (afterTestWif_moves _)
  | issueStop => exact (portWrite_continues s _ _).of_moves (afterStop_moves _)
  | arbCheck => exact (snapStatus_continues s).of_moves (afterTestArbStop_moves _)
  | pollRead => exact (snapStatus_continues s).of_moves (afterTestRead_moves _)
  | readData => exact captureData_continues s
  | recvNext => exact (portWrite_continues s _ _).of_moves (afterRecvNext_moves _)
  | quiesce => exact (snapStatus_continues s).of_moves (setQ_quiesceOrExit_moves _ _)
  | complete r => exact absurd rfl (hc r)
  | idle | testIdle | testWif | testAck | testArb | testHold | testArbStop | testArbRead | testRif => exact .refl s

theorem advance_continues {s : State} (hc : ∀ r, s.pos ≠ .complete r) :
    Continues s (advance s) (accessAt s s.pos) :=
  advanceFrom_continues s hc

/-- Only `EN_SAVE` writes `saved_en` (41_bus_primitives.md R120). -/
theorem advanceFrom_savedEn (s : State) {p : Pos} (hp : p ≠ .enSave) : (advanceFrom s p).savedEn = s.savedEn := by
  cases p with
  | enSave => exact absurd rfl hp
  | waitIdle => exact (afterTestIdle_moves s.snapStatus).savedEn
  | sendAddr => exact (afterSendAddr_moves (s.portWrite _ _)).savedEn
  | waitWif => exact (afterTestWif_moves s.snapStatus).savedEn
  | issueStop => exact (afterStop_moves (s.portWrite _ _)).savedEn
  | arbCheck => exact (afterTestArbStop_moves s.snapStatus).savedEn
  | pollRead => exact (afterTestRead_moves s.snapStatus).savedEn
  | recvNext => exact (afterRecvNext_moves (s.portWrite _ _)).savedEn
  | quiesce => exact (setQ_quiesceOrExit_moves s.snapStatus _).savedEn
  | _ => rfl

/-- An operation is in progress exactly away from the request interface. -/
theorem pos_idle_iff {s : State} (h : posOk s) : s.pos = .idle ↔ s.op = .none := by
  refine ⟨fun hp => (posOk_at h hp).1, fun hop => ?_⟩
  have hat : ∀ {p}, s.pos = p → posOk (s.goto p) := posOk_at h
  have hnot : ¬ transferring s := by simp [transferring, hop]
  cases hp : s.pos with
  | idle => rfl
  | hold | baud | forceIdle | waitWif | putByte | arbCheck | pollRead | readData | respond | recvNext | quiesce =>
    exact absurd (hop.symm.trans (hat hp).1) nofun
  | enSave | enSet | waitIdle | sendAddr | issueStop => exact absurd (hat hp).1 hnot
  | enRestore r => exact absurd (transferring_of_exitOk (hat hp : exitOk s r)) hnot
  | complete r =>
    obtain hexit | ⟨-, hcfg, -⟩ : exitOk s r ∨ (r = .ok ∧ s.op = .configure ∧ s.phase = .idle) := hat hp
    · exact absurd (transferring_of_exitOk hexit) hnot
    · exact absurd (hop.symm.trans hcfg) nofun
  | _ => exact (hat hp).elim

/-- One access at each position of a request in progress, short of its completion (00_scope.md R6). -/
theorem accessAt_length {s : State} (h : posOk s) (hne : s.pos ≠ .idle) (hc : ∀ r, s.pos ≠ .complete r) :
    (accessAt s s.pos).length = 1 := by
  cases hp : s.pos with
  | idle => exact absurd hp hne
  | complete r => exact absurd hp (hc r)
  | testIdle | testWif | testAck | testArb | testHold | testArbStop | testArbRead | testRif => exact (posOk_at h hp).elim
  | _ => rfl

/-! ### What a run from an idle block can have reached -/

/-- Every step outside reset that has a next state. -/
inductive RunningStep (s t : State) : Prop
  | accepts {r : Request} {rest : List Request} {i : Instr} (idle : s.pos = .idle) (presented : s.requests = r :: rest)
      (decodes : decodeRequest s.cfg r = .ok i) (next : t = accept s i)
  | waits (idle : s.pos = .idle) (empty : s.requests = []) (next : t = s)
  | completes (r : TxResult) (complete : s.pos = .complete r) (next : t = s.finish r)
  | advances (away : s.pos ≠ .idle) (unfinished : ∀ r, s.pos ≠ .complete r) (next : t = advance s)

theorem runningStep {s t : State} (h : OnPath s) (hr : s.resetIn = false) (hstep : step s = .next t) : RunningStep s t := by
  rw [step_running s hr] at hstep
  cases stepRunning_of_onPath h with
  | waits idle empty hnext => exact .waits idle empty (Host.Outcome.next.inj (hstep.symm.trans hnext))
  | accepts idle presented decodes hnext =>
    exact .accepts idle presented decodes (Host.Outcome.next.inj (hstep.symm.trans hnext))
  | refuses _ _ _ hnext => cases hnext.symm.trans hstep
  | advances away hnext =>
    have hadv : t = advance s := Host.Outcome.next.inj (hstep.symm.trans hnext)
    by_cases hc : ∃ r, s.pos = .complete r
    · obtain ⟨r, hc⟩ := hc
      exact .completes r hc (hadv.trans (advance_at hc))
    · exact .advances away (fun r hr => hc ⟨r, hr⟩) hadv

/-- An acceptance makes no access and delivers nothing, and the request is in progress after it (R150). -/
theorem accept_frame {c : Config} {r : Request} {i : Instr} (s : State) (hd : decodeRequest c r = .ok i) :
    (accept s i).resetIn = s.resetIn ∧ (accept s i).trace = s.trace ∧ (accept s i).delivered = s.delivered ∧
      (accept s i).pos ≠ .idle := by
  obtain rfl | ⟨a, l, rfl, -⟩ | ⟨a, l, rfl, -⟩ := decodeRequest_ok_cases hd <;> exact ⟨rfl, rfl, rfl, nofun⟩

/-- The reset input stays deasserted. -/
theorem RunningStep.noReset {s t : State} (h : RunningStep s t) (hr : s.resetIn = false) : t.resetIn = false := by
  cases h with
  | accepts _ _ decodes next =>
    obtain ⟨hreset, -⟩ := accept_frame s decodes
    rw [next, hreset, hr]
  | waits _ _ next => rw [next, hr]
  | completes r _ next => rw [next, finish_resetIn, hr]
  | advances _ unfinished next => rw [next, (advance_continues unfinished).resetIn, hr]

/-- A run's last step. -/
theorem run_snoc {n : Nat} {s t : State} (h : run (n + 1) s = .next t) : ∃ u, run n s = .next u ∧ step u = .next t := by
  induction n generalizing s with
  | zero =>
    unfold run at h
    cases hs : step s with
    | next u => rw [hs] at h; exact ⟨s, rfl, hs.trans h⟩
    | fault f => rw [hs] at h; cases h
    | refused r => rw [hs] at h; cases h
  | succ n ih =>
    rw [run] at h
    cases hs : step s with
    | next u =>
      rw [hs] at h
      obtain ⟨v, hv, ht⟩ := ih h
      exact ⟨v, (run_of_step n hs).trans hv, ht⟩
    | fault f => rw [hs] at h; cases h
    | refused r => rw [hs] at h; cases h

/-- Where `n` steps from the idle block `s` can have come, with `I` what is known of the request accepted first and the
accesses it has made: the request is in progress; or it has completed from a state `u`, and the block is idle; or a later
request is or was in progress. -/
inductive Progress (I : State → List PortAccess → Prop) (s : State) : Nat → State → Prop
  | start : Progress I s 0 s
  | going {t : State} {l : List PortAccess} (away : t.pos ≠ .idle) (trace : t.trace = s.trace ++ l)
      (delivered : t.delivered = s.delivered) (known : I t l) : Progress I s (l.length + 1) t
  | done {n : Nat} {t u : State} {r : TxResult} {l : List PortAccess} (idle : t.pos = .idle)
      (trace : t.trace = s.trace ++ l) (delivered : t.delivered = s.delivered ++ [u.delivery r]) (onPath : OnPath u)
      (complete : u.pos = .complete r) (known : I u l) : Progress I s n t
  | later {n : Nat} {t : State} (away : t.pos ≠ .idle) (delivered : s.delivered.length < t.delivered.length) : Progress I s n t
  | beyond {n : Nat} {t : State} (delivered : s.delivered.length + 1 < t.delivered.length) : Progress I s n t

section

variable {I : State → List PortAccess → Prop} {s : State} {r : Request} {rest : List Request}

/-- What has to be known of the request for `Progress`: it holds at the acceptance, and each access keeps it. -/
structure Kept (I : State → List PortAccess → Prop) (s : State) (r : Request) : Prop where
  accept : ∀ {i}, decodeRequest s.cfg r = .ok i → I (accept s i) []
  advance : ∀ {u l}, OnPath u → (∀ x, u.pos ≠ .complete x) → I u l → I (advance u) (l ++ accessAt u u.pos)

/-- A request in progress is still in progress after an access. -/
theorem advance_away {u : State} (h : OnPath u) (hne : u.pos ≠ .idle) (hc : ∀ x, u.pos ≠ .complete x) :
    (advance u).pos ≠ .idle := fun hp =>
  have hop : (advance u).op = .none := (pos_idle_iff (onPath_advance h).position).mp hp
  hne ((pos_idle_iff h.position).mpr ((advance_continues hc).op ▸ hop))

theorem Progress.step {n : Nat} {t t' : State} (hk : Kept I s r) (hready : Ready s) (hreq : s.requests = r :: rest)
    (h : Progress I s n t) (ht : OnPath t) (hstep : RunningStep t t') : Progress I s (n + 1) t' := by
  cases h with
  | start =>
    cases hstep with
    | accepts idle presented decodes next =>
      obtain ⟨rfl, rfl⟩ := List.cons.inj (hreq.symm.trans presented)
      obtain ⟨-, htrace, hdel, haway⟩ := accept_frame s decodes
      rw [next]
      exact .going haway (by simp [htrace]) hdel (hk.accept decodes)
    | waits _ empty => cases hreq.symm.trans empty
    | completes x complete => cases hready.pos.symm.trans complete
    | advances away => exact absurd hready.pos away
  | @going _ l away trace delivered known =>
    cases hstep with
    | accepts idle => exact absurd idle away
    | waits idle => exact absurd idle away
    | completes x complete next =>
      rw [next]
      exact .done rfl (by rw [finish_trace, trace]) (by rw [finish_delivered, delivered]) ht complete known
    | advances _ unfinished next =>
      have hcont := advance_continues unfinished
      have hlen : (l ++ accessAt t t.pos).length = l.length + 1 := by
        rw [List.length_append, accessAt_length ht.position away unfinished]
      rw [next, ← hlen]
      exact .going (advance_away ht away unfinished) (by rw [hcont.trace, trace, List.append_assoc])
        (hcont.delivered.trans delivered) (hk.advance ht unfinished known)
  | done idle trace delivered onPath complete known =>
    cases hstep with
    | accepts _ _ decodes next =>
      obtain ⟨-, -, hdel, haway⟩ := accept_frame t decodes
      rw [next]
      exact .later haway (by simp [hdel, delivered])
    | waits _ _ next => rw [next]; exact .done idle trace delivered onPath complete known
    | completes x complete' => cases idle.symm.trans complete'
    | advances away => exact absurd idle away
  | later away delivered =>
    cases hstep with
    | accepts idle => exact absurd idle away
    | waits idle => exact absurd idle away
    | completes x _ next => rw [next]; exact .beyond (by simpa using delivered)
    | advances _ unfinished next =>
      rw [next]
      exact .later (advance_away ht away unfinished) ((advance_continues unfinished).delivered ▸ delivered)
  | beyond delivered =>
    cases hstep with
    | accepts _ _ decodes next =>
      obtain ⟨-, -, hdel, -⟩ := accept_frame t decodes
      rw [next]
      exact .beyond (hdel ▸ delivered)
    | waits _ _ next => rw [next]; exact .beyond delivered
    | completes x _ next => rw [next]; exact .beyond (by simpa using Nat.lt_succ_of_lt delivered)
    | advances _ unfinished next => rw [next]; exact .beyond ((advance_continues unfinished).delivered ▸ delivered)

/-- What every run from an idle block that is presented a request can have reached. -/
theorem progress_of_run {n : Nat} {t : State} (hk : Kept I s r) (hready : Ready s) (hreq : s.requests = r :: rest)
    (hrun : run n s = .next t) : Progress I s n t ∧ OnPath t ∧ t.resetIn = false := by
  induction n generalizing t with
  | zero => cases hrun; exact ⟨.start, onPath_of_ready hready, hready.noReset⟩
  | succ n ih =>
    obtain ⟨u, hu, hstep⟩ := run_snoc hrun
    obtain ⟨hprogress, hpath, hr⟩ := ih hu
    have hs := runningStep hpath hr hstep
    exact ⟨hprogress.step hk hready hreq hpath hs, step_onPath hpath hstep, hs.noReset hr⟩

/-- A run in which the request completes: where it completed from. -/
theorem completion_of_run {n : Nat} {t : State} (hk : Kept I s r) (hready : Ready s) (hreq : s.requests = r :: rest)
    (hrun : run n s = .next t) (hdone : completedOne s t) :
    ∃ u x l, OnPath u ∧ u.pos = .complete x ∧ I u l ∧ t.trace = s.trace ++ l ∧
      t.delivered = s.delivered ++ [u.delivery x] := by
  obtain ⟨hlen, hop⟩ := hdone
  obtain ⟨hprogress, hpath, -⟩ := progress_of_run hk hready hreq hrun
  have hidle : t.pos = .idle := (pos_idle_iff hpath.position).mpr hop
  cases hprogress with
  | start => omega
  | going away => exact absurd hidle away
  | done _ trace delivered onPath complete known => exact ⟨_, _, _, onPath, complete, known, trace, delivered⟩
  | later away => exact absurd hidle away
  | beyond delivered => omega

/-- A run in which nothing was delivered yet: the request is in progress, one access after each step but the first. -/
theorem pending_of_run {n : Nat} {t : State} (hk : Kept I s r) (hready : Ready s) (hreq : s.requests = r :: rest)
    (hrun : run n s = .next t) (hpos : 0 < n) (hdel : t.delivered = s.delivered) :
    ∃ l, n = l.length + 1 ∧ I t l ∧ t.trace = s.trace ++ l := by
  obtain ⟨hprogress, -, -⟩ := progress_of_run hk hready hreq hrun
  cases hprogress with
  | start => omega
  | going _ trace _ known => exact ⟨_, rfl, known, trace⟩
  | done _ _ delivered => simp [hdel] at delivered
  | later _ delivered => simp [hdel] at delivered
  | beyond delivered => simp [hdel] at delivered

end

/-! ### CTRLA over a request (R177) -/

theorem accessesOf_append (r : PortReg) (l l' : List PortAccess) :
    accessesOf r (l ++ l') = accessesOf r l ++ accessesOf r l' := List.filter_append ..

/-- The positions between the two writes of CTRLA: `EN_SET` was made, `EN_RESTORE` not yet. -/
def unitEnabled : Pos → Bool
  | .idle => false
  | .hold => false
  | .baud => false
  | .forceIdle => false
  | .enSave => false
  | .enSet => false
  | .complete _ => false
  | _ => true

theorem classified_enabled (s : State) (v : Verdict) : unitEnabled (classified s v).pos = true := by
  cases v with
  | proceed =>
    rw [classified]
    obtain ⟨-, -, h⟩ | ⟨-, -, h⟩ | ⟨-, -, h⟩ | ⟨-, -, h⟩ := proceed_cases s <;> rw [h] <;> rfl
  | nack => rfl
  | arbLost => rfl

theorem afterTestIdle_enabled (s : State) : unitEnabled (afterTestIdle s).pos = true := by
  unfold afterTestIdle
  split <;> rfl

theorem afterTestWif_enabled (s : State) : unitEnabled (afterTestWif s).pos = true := by
  unfold afterTestWif
  split
  · exact classified_enabled s _
  · rfl

theorem afterTestArbStop_enabled (s : State) : unitEnabled (afterTestArbStop s).pos = true := by
  unfold afterTestArbStop
  split <;> rfl

theorem afterTestRead_enabled (s : State) : unitEnabled (afterTestRead s).pos = true := by
  unfold afterTestRead afterTestRif
  split
  · rfl
  · split <;> rfl

theorem afterSendAddr_enabled (s : State) : unitEnabled s.afterSendAddr.pos = true := by
  obtain ⟨-, -, h⟩ | ⟨-, -, h⟩ | ⟨-, h⟩ := afterSendAddr_cases s <;> rw [h] <;> rfl

theorem afterRecvNext_enabled (s : State) : unitEnabled s.afterRecvNext.pos = true := by
  obtain ⟨-, h⟩ | ⟨-, h⟩ := afterRecvNext_cases s <;> rw [h] <;> rfl

theorem quiesceOrExit_enabled (s : State) : unitEnabled s.quiesceOrExit.pos = true := by
  obtain ⟨-, h⟩ | ⟨-, h⟩ := quiesceOrExit_cases s <;> rw [h] <;> rfl

theorem afterStop_enabled (s : State) : unitEnabled s.afterStop.pos = true := by
  obtain ⟨-, h⟩ | ⟨-, h⟩ := afterStop_cases s <;> rw [h]
  · exact quiesceOrExit_enabled _
  · rfl

/-- While the unit is enabled no access but the restore is one of CTRLA, and the unit stays enabled after it. -/
theorem advance_enabled {s : State} (h : posOk s) (hon : unitEnabled s.pos = true) (hnot : ∀ r, s.pos ≠ .enRestore r) :
    unitEnabled (advance s).pos = true ∧ accessesOf .ctrla (accessAt s s.pos) = [] := by
  unfold advance
  cases hp : s.pos with
  | idle | hold | baud | forceIdle | enSave | enSet | complete => rw [hp] at hon; cases hon
  | waitIdle => exact ⟨afterTestIdle_enabled _, rfl⟩
  | sendAddr => exact ⟨afterSendAddr_enabled _, rfl⟩
  | waitWif => exact ⟨afterTestWif_enabled _, rfl⟩
  | putByte | readData | respond => exact ⟨rfl, rfl⟩
  | issueStop => exact ⟨afterStop_enabled _, rfl⟩
  | arbCheck => exact ⟨afterTestArbStop_enabled _, rfl⟩
  | pollRead => exact ⟨afterTestRead_enabled _, rfl⟩
  | recvNext => exact ⟨afterRecvNext_enabled _, rfl⟩
  | quiesce => exact ⟨quiesceOrExit_enabled _, rfl⟩
  | enRestore r => exact absurd hp (hnot r)
  | testIdle | testWif | testAck | testArb | testHold | testArbStop | testArbRead | testRif => exact (posOk_at h hp).elim

/-- What a WRITE or a READ that made the accesses `l` has done to CTRLA, at each part of its way (R177). -/
inductive EnableHistory (s : State) : List PortAccess → Prop
  | unread (pos : s.pos = .enSave) : EnableHistory s []
  | saved (pos : s.pos = .enSet) : EnableHistory s [.read .ctrla s.savedEn]
  | enabled {l : List PortAccess} (on : unitEnabled s.pos = true) (none : accessesOf .ctrla l = []) :
      EnableHistory s (.read .ctrla s.savedEn :: .write .ctrla (s.savedEn ||| 0x01) :: l)
  | restored {l : List PortAccess} {r : TxResult} (pos : s.pos = .complete r) (none : accessesOf .ctrla l = []) :
      EnableHistory s
        (PortAccess.read .ctrla s.savedEn :: .write .ctrla (s.savedEn ||| 0x01) :: l ++ [PortAccess.write .ctrla s.savedEn])

theorem EnableHistory.advance {s : State} {l : List PortAccess} (hpath : OnPath s) (hc : ∀ r, s.pos ≠ .complete r)
    (h : EnableHistory s l) : EnableHistory (advance s) (l ++ accessAt s s.pos) := by
  have hsaved : s.pos ≠ .enSave → (Proofs.advance s).savedEn = s.savedEn := advanceFrom_savedEn s
  cases h with
  | unread pos =>
    rw [advance_at pos, pos]
    exact .saved (s := s.enSave) rfl
  | saved pos =>
    rw [advance_at pos, pos]
    exact .enabled (s := advanceFrom s .enSet) rfl rfl
  | enabled on none =>
    have hne : s.pos ≠ .enSave := fun hp => by rw [hp] at on; cases on
    by_cases hexit : ∃ r, s.pos = .enRestore r
    · obtain ⟨r, hp⟩ := hexit
      rw [advance_at hp, hp]
      exact .restored (s := advanceFrom s (.enRestore r)) (r := r) rfl none
    · obtain ⟨hon, hother⟩ := advance_enabled hpath.position on fun r hr => hexit ⟨r, hr⟩
      rw [← hsaved hne]
      exact .enabled hon ((accessesOf_append ..).trans (by rw [none, hother, List.append_nil]))
  | restored pos => exact absurd pos (hc _)

/-- A request with one of the two headers of a transfer is accepted as WRITE or READ, at `EN_SAVE` (R150). -/
theorem accept_pos_of_header {c : Config} {r : Request} {i : Instr} (s : State) (hh : r.header = 0x01 ∨ r.header = 0x02)
    (hd : decodeRequest c r = .ok i) : (accept s i).pos = .enSave := by
  have henc := encode_of_decodeRequest hd
  obtain rfl | ⟨a, l, rfl, -⟩ | ⟨a, l, rfl, -⟩ := decodeRequest_ok_cases hd
  · cases henc
    exact absurd hh (by decide)
  · rfl
  · rfl

theorem enableHistory_kept {s : State} {r : Request} (hh : r.header = 0x01 ∨ r.header = 0x02) : Kept EnableHistory s r where
  accept hd := .unread (accept_pos_of_header s hh hd)
  advance hpath hc h := h.advance hpath hc

/-- Settles O56: at the completion the history is the read, the enable write, accesses of other registers, the restore. -/
theorem enableIsSymmetric : Obligations.EnableIsSymmetric := by
  unfold Obligations.EnableIsSymmetric
  intro s t r rest n _ hready hreq hh hrun hdone
  obtain ⟨u, x, l, -, hp, hknown, htrace, -⟩ := completion_of_run (enableHistory_kept hh) hready hreq hrun hdone
  refine ⟨u.savedEn, l, htrace, ?_⟩
  cases hknown with
  | unread pos => cases pos.symm.trans hp
  | saved pos => cases pos.symm.trans hp
  | enabled on => rw [hp] at on; cases on
  | @restored l _ _ none =>
    refine ⟨rfl, List.getLast?_concat .., ?_⟩
    rw [accessesOf_append]
    exact congrArg (fun m => PortAccess.read .ctrla u.savedEn :: .write .ctrla (u.savedEn ||| 0x01) :: m ++ [_]) none

/-- Settles O57: with two accesses made and the restore not, the history is the read, the enable write, and accesses of
other registers. -/
theorem enableIsHeldUntilTheExit : Obligations.EnableIsHeldUntilTheExit := by
  unfold Obligations.EnableIsHeldUntilTheExit
  intro s t r rest n _ hready hreq hh hn hrun hdel hnot
  obtain ⟨l, hlen, hknown, htrace⟩ :=
    pending_of_run (enableHistory_kept hh) hready hreq hrun (Nat.lt_of_lt_of_le (by decide) hn) hdel
  refine ⟨t.savedEn, l, htrace, ?_⟩
  cases hknown with
  | unread => simp only [List.length_nil] at hlen; omega
  | saved => simp only [List.length_singleton] at hlen; omega
  | enabled _ none =>
    exact ⟨rfl, congrArg (fun m => PortAccess.read .ctrla t.savedEn :: .write .ctrla (t.savedEn ||| 0x01) :: m) none⟩
  | restored pos => exact absurd pos (hnot _)

/-! ### Transfers with no data (R166, R175) -/

/-- The accesses of a trace that go to ADDR, DATA or CMD: what the transfer itself does, without the enable and the status
reads. -/
def busAccesses (l : List PortAccess) : List PortAccess :=
  l.filter fun a => accessed a == .addr || accessed a == .data || accessed a == .cmd

theorem busAccesses_append (l l' : List PortAccess) : busAccesses (l ++ l') = busAccesses l ++ busAccesses l' :=
  List.filter_append ..

/-- The accesses of one of these registers are read off them. -/
theorem accessesOf_eq_busAccesses {r : PortReg} (hr : r = .addr ∨ r = .data ∨ r = .cmd) (l : List PortAccess) :
    accessesOf r l = accessesOf r (busAccesses l) := by
  rw [accessesOf, accessesOf, busAccesses, List.filter_filter]
  refine List.filter_congr fun a _ => ?_
  obtain rfl | rfl | rfl := hr <;> cases accessed a <;> rfl

/-- The positions up to `SEND_ADDR`. -/
def beforeAddress : Pos → Bool
  | .enSave => true
  | .enSet => true
  | .waitIdle => true
  | .sendAddr => true
  | _ => false

theorem afterTestIdle_beforeAddress (s : State) : beforeAddress (afterTestIdle s).pos = true := by
  unfold afterTestIdle
  split <;> rfl

/-- Up to the address byte a transfer only enables the unit and waits for the bus (R162). -/
theorem advance_beforeAddress {s : State} (hp : beforeAddress s.pos = true) (hne : s.pos ≠ .sendAddr) :
    beforeAddress (advance s).pos = true ∧ busAccesses (accessAt s s.pos) = [] := by
  unfold advance
  cases hpos : s.pos with
  | enSave | enSet => exact ⟨rfl, rfl⟩
  | waitIdle => exact ⟨afterTestIdle_beforeAddress _, rfl⟩
  | sendAddr => exact absurd hpos hne
  | _ => rw [hpos] at hp; cases hp

/-- A request that decodes is a WRITE or a READ with the operands presented (30_encoding.md R71, R72). -/
theorem decodeRequest_write {c : Config} {bytes : List Byte} (a : Byte) (hfit : lengthFits c bytes.length = true) :
    decodeRequest c { header := 0x01, operands := some { addr := a, len := bytes.length, bytes := bytes } } =
      .ok (.write a bytes) :=
  decodeOperands_operandsOf .write a hfit

theorem decodeRequest_read {c : Config} {bytes : List Byte} (a : Byte) (hfit : lengthFits c bytes.length = true) :
    decodeRequest c { header := 0x02, operands := some { addr := a, len := bytes.length, bytes := bytes } } =
      .ok (.read a bytes) :=
  decodeOperands_operandsOf .read a hfit

/-- The positions of an empty WRITE after its address byte: it waits for the classification, or is at its exit (R166). -/
def emptyWriteSent : Pos → Bool
  | .waitWif => true
  | .enRestore _ => true
  | .complete _ => true
  | _ => false

/-- A WRITE with no data that made the accesses `l`: the address byte is all it put on the bus, once it was sent (R166). -/
structure EmptyWrite (a : Byte) (s : State) (l : List PortAccess) : Prop where
  op : s.op = .write
  len : s.len = 0
  addr : s.addr = a
  bus : (beforeAddress s.pos = true ∧ busAccesses l = []) ∨
    (emptyWriteSent s.pos = true ∧ busAccesses l = [.write .addr (addrByte a .write)])

/-- The address byte of an empty WRITE leads to an exit, whatever its classification is (R163, R166). -/
theorem classified_emptyWrite {s : State} (hphase : s.phase = .address) (hlen : s.len = 0) (v : Verdict) :
    emptyWriteSent (classified s v).pos = true := by
  cases v with
  | proceed => simp [classified, State.proceed, hphase, hlen, emptyWriteSent]
  | nack => rfl
  | arbLost => rfl

theorem advance_emptyWriteSent {s : State} (h : posOk s) (hlen : s.len = 0) (hp : emptyWriteSent s.pos = true)
    (hc : ∀ r, s.pos ≠ .complete r) :
    emptyWriteSent (advance s).pos = true ∧ busAccesses (accessAt s s.pos) = [] := by
  cases hpos : s.pos with
  | waitWif =>
    obtain ⟨-, hphase | ⟨-, hk⟩⟩ : s.op = .write ∧ (s.phase = .address ∨ (s.phase = .write ∧ s.k < s.len)) := posOk_at h hpos
    · rw [advance_at hpos]
      refine ⟨?_, rfl⟩
      rw [advanceFrom, afterTestWif]
      split
      · exact classified_emptyWrite (s := s.snapStatus) hphase hlen _
      · rfl
    · omega
  | enRestore r => rw [advance_at hpos]; exact ⟨rfl, rfl⟩
  | complete r => exact absurd hpos (hc r)
  | _ => rw [hpos] at hp; cases hp

theorem EmptyWrite.advance {a : Byte} {s : State} {l : List PortAccess} (hpath : OnPath s) (hc : ∀ r, s.pos ≠ .complete r)
    (h : EmptyWrite a s l) : EmptyWrite a (advance s) (l ++ accessAt s s.pos) := by
  have hcont := advance_continues hc
  refine ⟨hcont.op.trans h.op, hcont.len.trans h.len, hcont.addr.trans h.addr, ?_⟩
  rw [busAccesses_append]
  obtain ⟨hp, hnone⟩ | ⟨hp, hsent⟩ := h.bus
  · by_cases hsend : s.pos = .sendAddr
    · have hwait : (s.portWrite .addr (addrByte s.addr s.dir)).afterSendAddr.pos = .waitWif := by
        simp [State.afterSendAddr, h.op]
      rw [advance_at hsend, hsend, hnone]
      refine .inr ⟨congrArg emptyWriteSent hwait, ?_⟩
      simp [accessAt, busAccesses, accessed, State.dir, h.op, h.addr]
    · obtain ⟨hp', hquiet⟩ := advance_beforeAddress hp hsend
      exact .inl ⟨hp', by rw [hnone, hquiet, List.append_nil]⟩
  · obtain ⟨hp', hquiet⟩ := advance_emptyWriteSent hpath.position h.len hp hc
    exact .inr ⟨hp', by rw [hsent, hquiet, List.append_nil]⟩

theorem emptyWrite_kept (s : State) (a : Byte) :
    Kept (EmptyWrite a) s { header := 0x01, operands := some { addr := a, len := 0, bytes := [] } } where
  accept hd := by
    cases (decodeRequest_write (bytes := []) a rfl).symm.trans hd
    exact ⟨rfl, rfl, rfl, .inl ⟨rfl, rfl⟩⟩
  advance hpath hc h := h.advance hpath hc

/-- Settles O58: at the completion the address byte is all that was put on the bus. -/
theorem emptyWriteSendsNoData : Obligations.EmptyWriteSendsNoData := by
  unfold Obligations.EmptyWriteSendsNoData
  intro s t a rest n _ hready hreq hrun hdone
  obtain ⟨u, x, l, -, hp, hknown, htrace, -⟩ := completion_of_run (emptyWrite_kept s a) hready hreq hrun hdone
  obtain ⟨hbefore, -⟩ | ⟨-, hbus⟩ := hknown.bus
  · rw [hp] at hbefore
    cases hbefore
  · refine ⟨l, htrace, ?_, ?_, ?_⟩ <;> rw [accessesOf_eq_busAccesses (by simp), hbus] <;> rfl

/-- The positions of an empty READ after its STOP (R175). -/
def emptyReadStopped : Pos → Bool
  | .quiesce => true
  | .enRestore r => r == .ok
  | .complete r => r == .ok
  | _ => false

/-- A READ into a zero-length buffer that made the accesses `l`: the address byte and then STOP are all it put on the bus
(R172, R175). -/
structure EmptyRead (a : Byte) (s : State) (l : List PortAccess) : Prop where
  op : s.op = .read
  len : s.len = 0
  addr : s.addr = a
  bus : (beforeAddress s.pos = true ∧ busAccesses l = []) ∨
    (s.pos = .issueStop ∧ busAccesses l = [.write .addr (addrByte a .read)]) ∨
    (emptyReadStopped s.pos = true ∧ busAccesses l = [.write .addr (addrByte a .read), .write .cmd 0x03])

theorem quiesceOrExit_emptyRead (s : State) : emptyReadStopped s.quiesceOrExit.pos = true := by
  obtain ⟨-, h⟩ | ⟨-, h⟩ := quiesceOrExit_cases s <;> rw [h] <;> rfl

theorem advance_emptyReadStopped {s : State} (hp : emptyReadStopped s.pos = true) (hc : ∀ r, s.pos ≠ .complete r) :
    emptyReadStopped (advance s).pos = true ∧ busAccesses (accessAt s s.pos) = [] := by
  cases hpos : s.pos with
  | quiesce => rw [advance_at hpos]; exact ⟨quiesceOrExit_emptyRead _, rfl⟩
  | enRestore r =>
    rw [hpos] at hp
    rw [advance_at hpos]
    exact ⟨hp, rfl⟩
  | complete r => exact absurd hpos (hc r)
  | _ => rw [hpos] at hp; cases hp

theorem EmptyRead.advance {a : Byte} {s : State} {l : List PortAccess} (hc : ∀ r, s.pos ≠ .complete r)
    (h : EmptyRead a s l) : EmptyRead a (advance s) (l ++ accessAt s s.pos) := by
  have hcont := advance_continues hc
  refine ⟨hcont.op.trans h.op, hcont.len.trans h.len, hcont.addr.trans h.addr, ?_⟩
  rw [busAccesses_append]
  obtain ⟨hp, hnone⟩ | ⟨hp, hsent⟩ | ⟨hp, hstop⟩ := h.bus
  · by_cases hsend : s.pos = .sendAddr
    · have hstop : (s.portWrite .addr (addrByte s.addr s.dir)).afterSendAddr.pos = .issueStop := by
        simp [State.afterSendAddr, h.op, h.len]
      rw [advance_at hsend, hsend, hnone]
      refine .inr (.inl ⟨hstop, ?_⟩)
      simp [accessAt, busAccesses, accessed, State.dir, h.op, h.addr]
    · obtain ⟨hp', hquiet⟩ := advance_beforeAddress hp hsend
      exact .inl ⟨hp', by rw [hnone, hquiet, List.append_nil]⟩
  · have hquiesce : (s.portWrite .cmd 0x03).afterStop = { s.portWrite .cmd 0x03 with q := 0 }.quiesceOrExit := if_pos h.op
    rw [advance_at hp, hp, hsent, advanceFrom, hquiesce]
    exact .inr (.inr ⟨quiesceOrExit_emptyRead _, rfl⟩)
  · obtain ⟨hp', hquiet⟩ := advance_emptyReadStopped hp hc
    exact .inr (.inr ⟨hp', by rw [hstop, hquiet, List.append_nil]⟩)

theorem emptyRead_kept (s : State) (a : Byte) :
    Kept (EmptyRead a) s { header := 0x02, operands := some { addr := a, len := 0, bytes := [] } } where
  accept hd := by
    cases (decodeRequest_read (bytes := []) a rfl).symm.trans hd
    exact ⟨rfl, rfl, rfl, .inl ⟨rfl, rfl⟩⟩
  advance _ hc h := h.advance hc

/-- Settles O59: at the completion STOP was the only command, and the result that is due is Ok. -/
theorem emptyReadStopsAndSucceeds : Obligations.EmptyReadStopsAndSucceeds := by
  unfold Obligations.EmptyReadStopsAndSucceeds
  intro s t a rest n _ hready hreq hrun hdone
  obtain ⟨u, x, l, hpath, hp, hknown, htrace, hdel⟩ := completion_of_run (emptyRead_kept s a) hready hreq hrun hdone
  have hbuf : u.buf = [] := List.eq_nil_of_length_eq_zero ((hpath.bufLength hknown.op).trans hknown.len)
  obtain ⟨hbefore, -⟩ | ⟨hstop, -⟩ | ⟨hstopped, hbus⟩ := hknown.bus
  · rw [hp] at hbefore
    cases hbefore
  · cases hp.symm.trans hstop
  · rw [hp] at hstopped
    obtain rfl : x = .ok := beq_iff_eq.mp hstopped
    refine ⟨l, htrace, ?_, ?_, ?_, ?_⟩
    · rw [accessesOf_eq_busAccesses (by simp), hbus]; rfl
    · rw [accessesOf_eq_busAccesses (by simp), hbus]; rfl
    · rw [accessesOf_eq_busAccesses (by simp), hbus]; rfl
    · simp [hdel, State.delivery, hknown.op, hbuf, resultCode, resultIndex]

end Sys2Proof.Proofs

/-! PROOFS of 42_transactions.md, the transactions as a whole: from an idle block that is presented a WRITE or a READ, the
steps make the accesses of the pseudocode read as a whole and deliver its result (R161 to R175). `Reaches` composes the parts
of the pseudocode: each poll (`reaches_poll`), the loops over the bytes (`reaches_sendBytes`, `reaches_receiveBytes`), and
what follows them; `transaction_of_reaches` puts the acceptance before them and the exit after them. -/

namespace Sys2Proof.Proofs

open Sys2Proof.Machine Sys2Proof.Safety

/-! ### Runs of a request in progress -/

theorem run_append {m : Nat} {s t : State} (n : Nat) (h : run m s = .next t) : run (m + n) s = run n t := by
  induction m generalizing s with
  | zero => cases h; rw [Nat.zero_add]
  | succ m ih =>
    rw [run] at h
    cases hs : step s with
    | next u =>
      rw [hs] at h
      rw [Nat.add_right_comm, run_of_step _ hs]
      exact ih h
    | fault f => rw [hs] at h; cases h
    | refused r => rw [hs] at h; cases h

theorem onPath_of_run {n : Nat} {s t : State} (h : OnPath s) (hrun : run n s = .next t) : OnPath t := by
  induction n generalizing t with
  | zero => cases hrun; exact h
  | succ n ih =>
    obtain ⟨u, hu, hstep⟩ := run_snoc hrun
    exact step_onPath (ih hu) hstep

/-- The request in progress goes from `s` to `t` in as many steps as it makes accesses, `l`, with `saved_en` kept; of the
environment's answers `rest` is left. -/
structure Reaches (s t : State) (l : List PortAccess) (rest : List Byte) : Prop extends Continues s t l where
  run : run l.length s = .next t
  onPath : OnPath t
  savedEn : t.savedEn = s.savedEn
  answers : t.answers = rest

theorem Reaches.refl {s : State} (h : OnPath s) : Reaches s s [] s.answers :=
  { Continues.refl s with run := rfl, onPath := h, savedEn := rfl, answers := rfl }

theorem Reaches.trans {s t u : State} {l l' : List PortAccess} {rest rest' : List Byte} (h : Reaches s t l rest)
    (h' : Reaches t u l' rest') : Reaches s u (l ++ l') rest' :=
  { h.toContinues.trans h'.toContinues with
    run := by rw [List.length_append, run_append _ h.run, h'.run]
    onPath := h'.onPath
    savedEn := h'.savedEn.trans h.savedEn
    answers := h'.answers }

/-- The positions strictly inside a transfer: past `EN_SAVE`, and not at the completion. -/
def inside (p : Pos) : Prop := p ≠ .idle ∧ p ≠ .enSave ∧ ∀ r, p ≠ .complete r

/-- One step, from a position inside a transfer. -/
theorem reaches_step {s : State} {rest : List Byte} (p : Pos) (h : OnPath s) (hr : s.resetIn = false) (hp : s.pos = p)
    (hin : inside p) (ha : (advanceFrom s p).answers = rest) : Reaches s (advanceFrom s p) (accessAt s p) rest := by
  obtain ⟨hne, hsave, hc⟩ := hin
  have hlen : (accessAt s p).length = 1 := hp ▸ accessAt_length h.position (hp ▸ hne) (hp ▸ hc)
  exact { advanceFrom_continues s hc with
    run := by rw [hlen, run_of_step 0 (step_at p h hr hp hne), Safety.run]
    onPath := onPath_at p h hp
    savedEn := advanceFrom_savedEn s hsave
    answers := ha }

/-! ### A poll -/

/-- Status reads leave what the rest of a transfer goes by (41_bus_primitives.md R123). -/
structure Waited (s t : State) : Prop where
  phase : t.phase = s.phase
  len : t.len = s.len
  data : t.data = s.data
  buf : t.buf = s.buf
  k : t.k = s.k

theorem Waited.trans {s t u : State} (h : Waited s t) (h' : Waited t u) : Waited s u :=
  ⟨h'.phase.trans h.phase, h'.len.trans h.len, h'.data.trans h.data, h'.buf.trans h.buf, h'.k.trans h.k⟩

theorem snapStatus_waited (s : State) : Waited s s.snapStatus := ⟨rfl, rfl, rfl, rfl, rfl⟩

/-- The position `p` is a loop of status reads under the parameters `c`: it reads again on a byte without a verdict, and
`next` is what follows on a verdict. -/
structure Polls {α : Type} (c : Config) (p : Pos) (verdict : Byte → Option α) (next : α → State → State) : Prop where
  inside : inside p
  reads : ∀ s, accessAt s p = [.read .status s.answer]
  stays : ∀ {s}, s.cfg = c → s.pos = p → verdict s.answer = none → advanceFrom s p = s.snapStatus
  ends : ∀ {s v}, s.cfg = c → s.pos = p → verdict s.answer = some v → advanceFrom s p = next v s.snapStatus
  moves : ∀ v s, Moves s (next v s)

/-- A poll makes the reads of `pollStatus` and goes on by its verdict. -/
theorem reaches_poll {α : Type} {p : Pos} {verdict : Byte → Option α} {next : α → State → State} {s : State} {v : α}
    {l : List PortAccess} {rest : List Byte} (hpoll : Polls s.cfg p verdict next) (h : OnPath s) (hr : s.resetIn = false)
    (hp : s.pos = p) (hv : pollStatus verdict s.answers = some (l, v, rest)) :
    ∃ u, Waited s u ∧ Reaches s (next v u) l rest := by
  induction hA : s.answers generalizing s l with
  | nil => rw [hA] at hv; cases hv
  | cons b bs ih =>
    have hb : s.answer = b := answer_cons s b bs hA
    have hwaited := snapStatus_waited s
    have htail : s.snapStatus.answers = bs := by rw [snapStatus_answers, hA, List.tail_cons]
    have hreads := hpoll.reads s
    rw [hA, pollStatus] at hv
    cases hver : verdict b with
    | some w =>
      rw [hver] at hv
      cases hv
      have hends := hpoll.ends rfl hp (hb.symm ▸ hver)
      have hstep := reaches_step (rest := rest) p h hr hp hpoll.inside
        (by rw [hends, (hpoll.moves v s.snapStatus).answers, htail])
      rw [hends, hreads, hb] at hstep
      exact ⟨s.snapStatus, hwaited, hstep⟩
    | none =>
      rw [hver] at hv
      have hstays := hpoll.stays rfl hp (hb.symm ▸ hver)
      have hstep := reaches_step (rest := bs) p h hr hp hpoll.inside (by rw [hstays, htail])
      rw [hstays, hreads, hb] at hstep
      cases hrec : pollStatus verdict bs with
      | none => simp [hrec] at hv
      | some x =>
        obtain ⟨l', v', rest'⟩ := x
        simp only [hrec, Option.some.injEq, Prod.mk.injEq] at hv
        obtain ⟨rfl, rfl, rfl⟩ := hv
        obtain ⟨u, hu, hreach⟩ := ih (s := s.snapStatus) hpoll hstep.onPath hr hp (htail.symm ▸ hrec) htail
        exact ⟨u, hwaited.trans hu, hstep.trans hreach⟩

/-- `WAIT_IDLE` (41_bus_primitives.md R124). -/
theorem waitIdle_polls (c : Config) : Polls c .waitIdle (idleVerdict c) fun _ s => s.enterAddress where
  inside := ⟨nofun, nofun, nofun⟩
  reads _ := rfl
  stays := by
    rintro s rfl hp hv
    have hbusy : ¬ busState s.cfg s.answer = .ok .idle := fun hidle => by simp [idleVerdict, hidle] at hv
    exact (if_neg hbusy).trans (goto_self s.snapStatus _ hp)
  ends := by
    rintro s v rfl hp hv
    exact if_pos (by_contra fun hbusy : ¬ busState s.cfg s.answer = .ok .idle => by simp [idleVerdict, hbusy] at hv)
  moves _ s := enterAddress_moves s

/-- `WAIT_WIF` with the classification of its last byte (41_bus_primitives.md R126, R128). -/
theorem waitWif_polls (c : Config) : Polls c .waitWif (wifVerdict c) fun v s => classified s v where
  inside := ⟨nofun, nofun, nofun⟩
  reads _ := rfl
  stays := by
    rintro s rfl hp hv
    have hclear : ¬ wif s.cfg s.answer = true := fun hset => by simp [wifVerdict, hset] at hv
    exact (if_neg hclear).trans (goto_self s.snapStatus _ hp)
  ends := by
    rintro s v rfl hp hv
    obtain ⟨hset, rfl⟩ : wif s.cfg s.answer = true ∧ classify s.cfg s.answer = v := by simpa [wifVerdict] using hv
    exact if_pos hset
  moves v s := classified_moves s v

/-- What follows a read's poll: DATA is read, or the arbitration was lost (R173). -/
def afterPoll (rif : Bool) (s : State) : State := if rif then s.goto .readData else s.raise .arbitrationLost

/-- A read's poll (R173). -/
theorem pollRead_polls (c : Config) : Polls c .pollRead (rifVerdict c) afterPoll where
  inside := ⟨nofun, nofun, nofun⟩
  reads _ := rfl
  stays := by
    rintro s rfl hp hv
    unfold rifVerdict at hv
    split_ifs at hv with hlost hset
    exact (if_neg hlost).trans ((if_neg hset).trans (goto_self s.snapStatus _ hp))
  ends := by
    rintro s v rfl hp hv
    unfold rifVerdict at hv
    split_ifs at hv with hlost hset
    · cases hv
      exact if_pos hlost
    · cases hv
      exact (if_neg hlost).trans (if_pos hset)
  moves v s := by
    cases v with
    | true => exact goto_moves s _
    | false => exact raise_moves s _

/-! ### The acceptance and the exit -/

/-- An acceptance takes the request and leaves the parameters and the environment's answers (R150). -/
theorem accept_channels {c : Config} {r : Request} {i : Instr} (s : State) (hd : decodeRequest c r = .ok i) :
    (accept s i).cfg = s.cfg ∧ (accept s i).requests = s.requests.tail ∧ (accept s i).answers = s.answers ∧
      (accept s i).answer = s.answer := by
  obtain rfl | ⟨a, l, rfl, -⟩ | ⟨a, l, rfl, -⟩ := decodeRequest_ok_cases hd <;> exact ⟨rfl, rfl, rfl, rfl⟩

/-- An accepted WRITE or READ whose pseudocode leads to an exit with result `w.result`: the read of CTRLA comes before, the
restore and the delivery after (R150, R160, R171, 60_exceptions.md R195). -/
theorem transaction_of_reaches {s t : State} {r : Request} {rest : List Request} {i : Instr} {l : List PortAccess}
    {w : Transcript} (hready : Ready s) (hreq : s.requests = r :: rest) (hd : decodeRequest s.cfg r = .ok i)
    (hp : (accept s i).pos = .enSave) (h : Reaches (accept s i).enSave t l w.rest) (hx : t.pos = .enRestore w.result)
    (hw : w.accesses = PortAccess.read .ctrla s.answer :: l ++ [PortAccess.write .ctrla s.answer]) :
    ∃ v, run (w.accesses.length + 2) s = .next v ∧ v.trace = s.trace ++ w.accesses ∧
      v.delivered = s.delivered ++ [t.delivery w.result] ∧ v.answers = w.rest ∧ v.requests = rest ∧ Ready v ∧
      v.cfg = s.cfg ∧ v.result = w.result := by
  obtain ⟨hreset, htrace, hdel, -⟩ := accept_frame s hd
  obtain ⟨hcfg, hrequests, -, hanswer⟩ := accept_channels s hd
  have hr₀ : (accept s i).resetIn = false := hreset.trans hready.noReset
  have hr₁ : t.resetIn = false := h.resetIn.trans hr₀
  have hpath : OnPath (accept s i) := accept_onPath (onPath_of_ready hready) hready.pos hd
  have hexit := onPath_at _ h.onPath hx
  have hsave : t.savedEn = s.answer := h.savedEn.trans hanswer
  have hlen : w.accesses.length + 2 = l.length + 2 + 1 + 1 := by simp [hw]
  refine ⟨((t.portWrite .ctrla t.savedEn).goto (.complete w.result)).finish w.result, ?_, ?_, ?_, h.answers, ?_, ?_, ?_, rfl⟩
  · rw [hlen, run_of_step _ (step_accept hready hreq hd), run_of_step _ (step_at .enSave hpath hr₀ hp nofun), advanceFrom,
      run_append 2 h.run, run_of_step 1 (step_at _ h.onPath hr₁ hx nofun),
      run_of_step 0 (step_at (.complete w.result) hexit hr₁ rfl nofun)]
    rfl
  · simp [h.trace, htrace, hanswer, hsave, hw]
  · exact congrArg (· ++ [t.delivery w.result]) (h.delivered.trans hdel)
  · exact h.requests.trans (hrequests.trans (by rw [hreq, List.tail_cons]))
  · exact ⟨rfl, rfl, rfl, hr₁⟩
  · exact h.cfg.trans hcfg

/-! ### Up to the address byte (R162) -/

theorem busAcquire_eq_some {c : Config} {answers rest : List Byte} {e : Byte} {l : List PortAccess}
    (h : busAcquire c answers = some (e, l, rest)) :
    ∃ answers' l', answers = e :: answers' ∧ pollStatus (idleVerdict c) answers' = some (l', (), rest) ∧
      l = .read .ctrla e :: .write .ctrla (e ||| 0x01) :: l' := by
  cases answers with
  | nil => cases h
  | cons b bs =>
    rw [busAcquire] at h
    cases hpoll : pollStatus (idleVerdict c) bs with
    | none => simp [hpoll] at h
    | some x =>
      obtain ⟨l', u, rest'⟩ := x
      simp only [hpoll, Option.some.injEq, Prod.mk.injEq] at h
      obtain ⟨rfl, rfl, rfl⟩ := h
      exact ⟨bs, l', rfl, hpoll, rfl⟩

/-- From `EN_SET` to `SEND_ADDR`: the enable write and the reads of `WAIT_IDLE`. -/
theorem reaches_sendAddr {s : State} {l : List PortAccess} {rest : List Byte} (h : OnPath s) (hr : s.resetIn = false)
    (hp : s.pos = .enSet) (hv : pollStatus (idleVerdict s.cfg) s.answers = some (l, (), rest)) :
    ∃ t, Reaches s t (.write .ctrla (s.savedEn ||| 0x01) :: l) rest ∧ t.pos = .sendAddr ∧ t.buf = s.buf := by
  have hset := reaches_step (rest := s.answers) .enSet h hr hp ⟨nofun, nofun, nofun⟩ rfl
  obtain ⟨u, hu, hwait⟩ := reaches_poll (waitIdle_polls _) hset.onPath hr rfl hv
  exact ⟨_, hset.trans hwait, rfl, hu.buf⟩

/-- From the first access of an accepted transfer to `SEND_ADDR` (R162). -/
theorem reaches_entry {s : State} {r : Request} {i : Instr} {e : Byte} {answers rest : List Byte} {l : List PortAccess}
    (hready : Ready s) (hd : decodeRequest s.cfg r = .ok i) (hp : (accept s i).pos = .enSave) (ha : s.answers = e :: answers)
    (hv : pollStatus (idleVerdict s.cfg) answers = some (l, (), rest)) :
    ∃ t, Reaches (accept s i).enSave t (.write .ctrla (e ||| 0x01) :: l) rest ∧ t.pos = .sendAddr ∧
      t.buf = (accept s i).buf := by
  obtain ⟨hreset, -⟩ := accept_frame s hd
  obtain ⟨hcfg, -, hanswers, hanswer⟩ := accept_channels s hd
  have hpath : OnPath (accept s i).enSave := onPath_at .enSave (accept_onPath (onPath_of_ready hready) hready.pos hd) hp
  have hsave : (accept s i).enSave.savedEn = e := hanswer.trans (answer_cons s e answers ha)
  have hleft : (accept s i).enSave.answers = answers := by rw [enSave_answers, hanswers, ha, List.tail_cons]
  rw [← hcfg, ← hleft] at hv
  rw [← hsave]
  exact reaches_sendAddr hpath (hreset.trans hready.noReset) rfl hv

/-- The accesses of a transfer as a whole, with `saved_en` `e`: `l₀` waits for the bus, `l` follows the address byte (R160,
R171). -/
def transferAccesses (e a : Byte) (rw : Dir) (l₀ l : List PortAccess) : List PortAccess :=
  PortAccess.read .ctrla e :: (PortAccess.write .ctrla (e ||| 0x01) :: l₀ ++ PortAccess.write .addr (addrByte a rw) :: l) ++
    [PortAccess.write .ctrla e]

/-! ### WRITE (R161 to R166) -/

/-- `SEND_ADDR` of a WRITE (R163). -/
theorem reaches_waitWif {s : State} (h : OnPath s) (hr : s.resetIn = false) (hp : s.pos = .sendAddr) (hop : s.op = .write) :
    ∃ t, Reaches s t [.write .addr (addrByte s.addr .write)] s.answers ∧ t.pos = .waitWif ∧ t.phase = .address := by
  have hphase : s.phase = .address := (posOk_at h.position hp).2
  have hnext : advanceFrom s .sendAddr = (s.portWrite .addr (addrByte s.addr s.dir)).goto .waitWif := if_neg (by simp [hop])
  have hstep := reaches_step (rest := s.answers) .sendAddr h hr hp ⟨nofun, nofun, nofun⟩ (by rw [hnext]; rfl)
  have hdir : s.dir = .write := by simp [State.dir, hop]
  rw [hnext, accessAt, hdir] at hstep
  exact ⟨_, hstep, rfl, hphase⟩

/-- The loop of R164 and R165 as equations: a byte is sent and classified, and on PROCEED the next one follows. -/
theorem sendBytes_cons {c : Config} {k : Nat} {d : Byte} {ds answers rest : List Byte} {l : List PortAccess}
    {e : Option TxError} (h : sendBytes c k (d :: ds) answers = some (l, e, rest)) :
    ∃ l₁ v rest₁, pollStatus (wifVerdict c) answers = some (l₁, v, rest₁) ∧
      ((v = .nack ∧ l = .write .data d :: l₁ ∧ e = some (if ds = [] then .nack else .partialTransmit k) ∧ rest = rest₁) ∨
        (v = .arbLost ∧ l = .write .data d :: l₁ ∧ e = some .arbitrationLost ∧ rest = rest₁) ∨
        (v = .proceed ∧ ∃ l', sendBytes c (k + 1) ds rest₁ = some (l', e, rest) ∧ l = .write .data d :: l₁ ++ l')) := by
  rw [sendBytes] at h
  cases hpoll : pollStatus (wifVerdict c) answers with
  | none => simp [hpoll] at h
  | some x =>
    obtain ⟨l₁, v, rest₁⟩ := x
    rw [hpoll] at h
    refine ⟨l₁, v, rest₁, rfl, ?_⟩
    cases v with
    | nack => cases h; exact .inl ⟨rfl, rfl, rfl, rfl⟩
    | arbLost => cases h; exact .inr (.inl ⟨rfl, rfl, rfl, rfl⟩)
    | proceed =>
      cases hrec : sendBytes c (k + 1) ds rest₁ with
      | none => simp [hrec] at h
      | some y =>
        obtain ⟨l', e', rest'⟩ := y
        simp only [hrec, Option.some.injEq, Prod.mk.injEq] at h
        obtain ⟨rfl, rfl, rfl⟩ := h
        exact .inr (.inr ⟨rfl, l', rfl, rfl⟩)

/-- One data byte of a WRITE, sent and classified (R164). -/
theorem reaches_classified {s : State} {d : Byte} {ds : List Byte} {l : List PortAccess} {v : Verdict} {rest : List Byte}
    (h : OnPath s) (hr : s.resetIn = false) (hp : s.pos = .putByte) (hdata : s.data.drop s.k = d :: ds)
    (hv : pollStatus (wifVerdict s.cfg) s.answers = some (l, v, rest)) :
    ∃ u, Waited s u ∧ Reaches s (classified u v) (.write .data d :: l) rest := by
  have hd : s.data.getD s.k 0 = d := by
    rw [List.getD_eq_getElem?_getD, ← List.head?_drop, hdata]
    rfl
  have hput := reaches_step (rest := s.answers) .putByte h hr hp ⟨nofun, nofun, nofun⟩ rfl
  rw [advanceFrom, accessAt, hd] at hput
  have hwaited : Waited s ((s.portWrite .data d).goto .waitWif) := ⟨rfl, rfl, rfl, rfl, rfl⟩
  obtain ⟨u, hu, hwait⟩ := reaches_poll (waitWif_polls _) hput.onPath hr rfl hv
  exact ⟨u, hwaited.trans hu, hput.trans hwait⟩

/-- Where the data bytes of a WRITE lead: to STOP, or to the error exit (R164, R165). -/
def afterBytes : Option TxError → Pos
  | none => .issueStop
  | some e => .enRestore (.err e)

/-- The test of the loop over the data bytes: `ds` is still to be sent, byte `k` first (R164, R165). -/
def AtByte (k : Nat) (ds : List Byte) (s : State) : Prop :=
  (ds = [] ∧ s.pos = .issueStop) ∨ (ds ≠ [] ∧ s.pos = .putByte ∧ s.k = k ∧ s.data.drop k = ds)

/-- PROCEED on a data byte leads to the test of the loop again. -/
theorem proceed_atByte {s : State} {d : Byte} {ds : List Byte} (hphase : ¬ s.phase = .address)
    (hmore : s.k + 1 < s.len ↔ ds ≠ []) (hdata : s.data.drop s.k = d :: ds) : AtByte (s.k + 1) ds s.proceed := by
  rw [State.proceed, if_neg hphase]
  by_cases hds : ds = []
  · rw [if_neg (by simp [hmore, hds])]
    exact .inl ⟨hds, rfl⟩
  · rw [if_pos (hmore.mpr hds)]
    exact .inr ⟨hds, rfl, rfl, by rw [← List.tail_drop, hdata, List.tail_cons]⟩

/-- The loop over the data bytes (R164, R165). -/
theorem reaches_sendBytes (ds : List Byte) {k : Nat} {s : State} {l : List PortAccess} {e : Option TxError} {rest : List Byte}
    (h : OnPath s) (hr : s.resetIn = false) (hop : s.op = .write) (hat : AtByte k ds s)
    (hsend : sendBytes s.cfg k ds s.answers = some (l, e, rest)) :
    ∃ t, Reaches s t l rest ∧ t.pos = afterBytes e := by
  induction ds generalizing k s l with
  | nil =>
    obtain ⟨-, hp⟩ | ⟨hne, -⟩ := hat
    · cases hsend
      exact ⟨s, .refl h, hp⟩
    · exact absurd rfl hne
  | cons d ds ih =>
    obtain ⟨-, hp, rfl, hdata⟩ := hat.resolve_left fun hnil => nomatch hnil.1
    obtain ⟨-, hphase, -⟩ : s.op = .write ∧ s.phase = .write ∧ s.k < s.len := posOk_at h.position hp
    have hlen : s.len = s.k + 1 + ds.length := by
      have hcount := congrArg List.length hdata
      rw [List.length_drop, h.dataLength hop, List.length_cons] at hcount
      omega
    obtain ⟨l₁, v, rest₁, hpoll, hcases⟩ := sendBytes_cons hsend
    obtain ⟨u, hu, hreach⟩ := reaches_classified h hr hp hdata hpoll
    have haway : ¬ u.phase = .address := by simp [hu.phase, hphase]
    have hmore : u.k + 1 < u.len ↔ ds ≠ [] := by
      rw [hu.k, hu.len, hlen, ← List.length_pos_iff]
      omega
    obtain ⟨rfl, rfl, rfl, rfl⟩ | ⟨rfl, rfl, rfl, rfl⟩ | ⟨rfl, l', hrec, rfl⟩ := hcases
    · refine ⟨_, hreach, ?_⟩
      rw [classified, raise_pos, nackError_eq_ite, afterBytes]
      by_cases hds : ds = []
      · rw [if_pos hds, if_neg fun hearlier => hmore.mp hearlier.2 hds]
      · rw [if_neg hds, if_pos ⟨haway, hmore.mpr hds⟩, hu.k]
    · exact ⟨_, hreach, rfl⟩
    · have hnext := proceed_atByte (s := u) haway hmore (by rw [hu.data, hu.k, hdata])
      rw [hu.k] at hnext
      rw [← hreach.cfg, ← hreach.answers] at hrec
      obtain ⟨t, hreach', ht⟩ := ih hreach.onPath (hreach.resetIn.trans hr) (hreach.op.trans hop) hnext hrec
      exact ⟨t, hreach.trans hreach', ht⟩

/-- `ISSUE_STOP` and `ARB_CHECK` of a WRITE (R165). -/
theorem reaches_arbCheck {s : State} {b : Byte} {rest : List Byte} (h : OnPath s) (hr : s.resetIn = false)
    (hop : s.op = .write) (hp : s.pos = .issueStop) (ha : s.answers = b :: rest) :
    ∃ t, Reaches s t [.write .cmd 0x03, .read .status b] rest ∧
      t.pos = .enRestore (if arbitrationLost s.cfg b then .err .arbitrationLost else .ok) := by
  have hnext : advanceFrom s .issueStop = (s.portWrite .cmd 0x03).goto .arbCheck := if_neg (by simp [hop])
  have hstop := reaches_step (rest := b :: rest) .issueStop h hr hp ⟨nofun, nofun, nofun⟩
    (by rw [hnext, goto_answers, portWrite_answers, ha])
  rw [hnext] at hstop
  have hb := answer_cons _ b rest hstop.answers
  have hcheck := reaches_step (rest := rest) .arbCheck hstop.onPath (hstop.resetIn.trans hr) rfl ⟨nofun, nofun, nofun⟩
    ((afterTestArbStop_moves _).answers.trans (by rw [snapStatus_answers, hstop.answers, List.tail_cons]))
  rw [accessAt, hb] at hcheck
  refine ⟨_, hstop.trans hcheck, ?_⟩
  rw [advanceFrom, afterTestArbStop, snapStatus_snap, hb, snapStatus_cfg, goto_cfg, portWrite_cfg]
  split <;> rfl

/-- What follows the classification of the address byte of a WRITE: the accesses up to the exit, its result, the answers
left (R163 to R166). -/
inductive WriteTail (c : Config) (data answers : List Byte) : Verdict → List PortAccess → TxResult → List Byte → Prop
  | nack : WriteTail c data answers .nack [] (.err .nack) answers
  | arbLost : WriteTail c data answers .arbLost [] (.err .arbitrationLost) answers
  | empty (none : data = []) : WriteTail c data answers .proceed [] .ok answers
  | failed {l : List PortAccess} {e : TxError} {rest : List Byte} (nonempty : data ≠ [])
      (send : sendBytes c 0 data answers = some (l, some e, rest)) : WriteTail c data answers .proceed l (.err e) rest
  | sent {l : List PortAccess} {b : Byte} {rest : List Byte} (nonempty : data ≠ [])
      (send : sendBytes c 0 data answers = some (l, none, b :: rest)) :
      WriteTail c data answers .proceed (l ++ [PortAccess.write .cmd 0x03, .read .status b])
        (if arbitrationLost c b then .err .arbitrationLost else .ok) rest

/-- The parts of a WRITE's transcript (R161). -/
theorem writeTranscript_eq_some {c : Config} {a : Byte} {data answers : List Byte} {w : Transcript}
    (h : writeTranscript c a data answers = some w) :
    ∃ e answers' l₀ rest₀ l₁ v rest₁ l₂, answers = e :: answers' ∧
      pollStatus (idleVerdict c) answers' = some (l₀, (), rest₀) ∧
      pollStatus (wifVerdict c) rest₀ = some (l₁, v, rest₁) ∧ WriteTail c data rest₁ v l₂ w.result w.rest ∧
      w.accesses = transferAccesses e a .write l₀ (l₁ ++ l₂) := by
  rw [writeTranscript] at h
  cases hacquire : busAcquire c answers with
  | none => simp [hacquire] at h
  | some x =>
    obtain ⟨e, la, rest₀⟩ := x
    obtain ⟨answers', l₀, rfl, hidle, rfl⟩ := busAcquire_eq_some hacquire
    cases hwif : pollStatus (wifVerdict c) rest₀ with
    | none => simp [hacquire, hwif] at h
    | some y =>
      obtain ⟨l₁, v, rest₁⟩ := y
      simp only [hacquire, hwif] at h
      suffices htail : ∃ l₂, WriteTail c data rest₁ v l₂ w.result w.rest ∧
          w.accesses = transferAccesses e a .write l₀ (l₁ ++ l₂) by
        obtain ⟨l₂, htail, hacc⟩ := htail
        exact ⟨e, answers', l₀, rest₀, l₁, v, rest₁, l₂, rfl, hidle, hwif, htail, hacc⟩
      cases v with
      | nack => cases h; exact ⟨[], .nack, by simp [transferAccesses]⟩
      | arbLost => cases h; exact ⟨[], .arbLost, by simp [transferAccesses]⟩
      | proceed =>
        by_cases hdata : data = []
        · rw [if_pos hdata] at h
          cases h
          exact ⟨[], .empty hdata, by simp [transferAccesses]⟩
        · rw [if_neg hdata] at h
          cases hsend : sendBytes c 0 data rest₁ with
          | none => simp [hsend] at h
          | some z =>
            obtain ⟨l₂, err, rest₂⟩ := z
            rw [hsend] at h
            cases err with
            | some err => cases h; exact ⟨l₂, .failed hdata hsend, by simp [transferAccesses]⟩
            | none =>
              cases rest₂ with
              | nil => cases h
              | cons b rest₃ => cases h; exact ⟨_, .sent hdata hsend, by simp [transferAccesses]⟩

/-- From the classification of the address byte to the exit (R163 to R166). -/
theorem reaches_writeTail {s : State} {v : Verdict} {l l₂ : List PortAccess} {r : TxResult} {rest rest₂ : List Byte}
    (h : OnPath s) (hr : s.resetIn = false) (hop : s.op = .write) (hp : s.pos = .waitWif) (hphase : s.phase = .address)
    (hv : pollStatus (wifVerdict s.cfg) s.answers = some (l, v, rest)) (htail : WriteTail s.cfg s.data rest v l₂ r rest₂) :
    ∃ t, Reaches s t (l ++ l₂) rest₂ ∧ t.pos = .enRestore r := by
  obtain ⟨u, hu, hreach⟩ := reaches_poll (waitWif_polls _) h hr hp hv
  have haddr : u.phase = .address := hu.phase.trans hphase
  have hlen : s.data.length = u.len := (h.dataLength hop).trans hu.len.symm
  have hbytes : s.data ≠ [] → AtByte 0 s.data u.proceed := fun hne => by
    have hlen' : ¬ u.len = 0 := hlen ▸ mt List.eq_nil_of_length_eq_zero hne
    rw [State.proceed, if_pos haddr, if_neg hlen']
    exact .inr ⟨hne, rfl, rfl, hu.data⟩
  have hr' := hreach.resetIn.trans hr
  have hop' := hreach.op.trans hop
  cases htail with
  | nack =>
    rw [List.append_nil]
    exact ⟨_, hreach, by simp [classified, nackError_eq_ite, haddr]⟩
  | arbLost =>
    rw [List.append_nil]
    exact ⟨_, hreach, rfl⟩
  | empty none =>
    have hexit : u.proceed = u.goto (.enRestore .ok) := by
      rw [State.proceed, if_pos haddr, if_pos (by rw [← hlen, none, List.length_nil])]
    rw [List.append_nil]
    exact ⟨_, hreach, congrArg State.pos hexit⟩
  | failed nonempty send =>
    rw [← hreach.cfg, ← hreach.answers] at send
    obtain ⟨t, hsend, ht⟩ := reaches_sendBytes s.data hreach.onPath hr' hop' (hbytes nonempty) send
    exact ⟨t, hreach.trans hsend, ht⟩
  | sent nonempty send =>
    rw [← hreach.cfg, ← hreach.answers] at send
    obtain ⟨t, hsend, ht⟩ := reaches_sendBytes s.data hreach.onPath hr' hop' (hbytes nonempty) send
    obtain ⟨t', hcheck, ht'⟩ := reaches_arbCheck hsend.onPath (hsend.resetIn.trans hr') (hsend.op.trans hop') ht hsend.answers
    have hcfg : t.cfg = s.cfg := hsend.cfg.trans hreach.cfg
    exact ⟨t', hreach.trans (hsend.trans hcheck), hcfg ▸ ht'⟩

/-- Settles O54: the parts of the pseudocode, each reached from the one before it, between the acceptance and the exit. -/
theorem writeRunsItsPseudocode : Obligations.WriteRunsItsPseudocode := by
  unfold Obligations.WriteRunsItsPseudocode
  intro s a bytes rest w hready hreq hfit hw
  obtain ⟨e, answers', l₀, rest₀, l₁, v, rest₁, l₂, hanswers, hidle, hwif, htail, hacc⟩ := writeTranscript_eq_some hw
  have hd := decodeRequest_write a hfit
  obtain ⟨t₁, h₁, hp₁, -⟩ := reaches_entry hready hd rfl hanswers hidle
  obtain ⟨t₂, h₂, hp₂, hphase₂⟩ := reaches_waitWif h₁.onPath (h₁.resetIn.trans hready.noReset) hp₁ h₁.op
  have h₁₂ := h₁.trans h₂
  have hcfg : t₂.cfg = s.cfg := h₁₂.cfg
  have hdata : t₂.data = bytes := h₁₂.data
  rw [← hcfg, ← h₁.answers, ← h₂.answers] at hwif
  rw [← hcfg, ← hdata] at htail
  obtain ⟨t₃, h₃, hp₃⟩ := reaches_writeTail h₁₂.onPath (h₁₂.resetIn.trans hready.noReset) h₁₂.op hp₂ hphase₂ hwif htail
  have hall := h₁₂.trans h₃
  have haddr : t₁.addr = a := h₁.addr
  have hop : t₃.op = .write := hall.op
  have hfinal := transaction_of_reaches hready hreq hd rfl hall hp₃
    (by simp [hacc, transferAccesses, answer_cons s e answers' hanswers, haddr])
  simpa [State.delivery, hop] using hfinal

/-! ### READ (R170 to R175) -/

/-- The test of the loop over a READ's bytes: `n` are still to come (R173). -/
def AtReceive (n : Nat) (s : State) : Prop :=
  (n = 0 ∧ s.pos = .issueStop) ∨ (n ≠ 0 ∧ s.pos = .pollRead ∧ s.k + n = s.len)

/-- `SEND_ADDR` of a READ: its bytes come next, or its STOP if it has none (R172). -/
theorem reaches_receive {s : State} (h : OnPath s) (hr : s.resetIn = false) (hp : s.pos = .sendAddr) (hop : s.op = .read) :
    ∃ t, Reaches s t [.write .addr (addrByte s.addr .read)] s.answers ∧ AtReceive t.len t ∧ t.buf = s.buf := by
  have hdir : s.dir = .read := by simp [State.dir, hop]
  have hmoves := afterSendAddr_moves (s.portWrite .addr (addrByte s.addr s.dir))
  have hstep := reaches_step (rest := s.answers) .sendAddr h hr hp ⟨nofun, nofun, nofun⟩ hmoves.answers
  have hat : AtReceive s.len (advanceFrom s .sendAddr) := by
    rw [advanceFrom]
    obtain ⟨-, hlen, h'⟩ | ⟨-, hlen, h'⟩ | ⟨hnot, -⟩ := afterSendAddr_cases (s.portWrite .addr (addrByte s.addr s.dir))
    · rw [h']
      exact .inl ⟨hlen, rfl⟩
    · rw [h']
      exact .inr ⟨hlen, rfl, Nat.zero_add _⟩
    · exact absurd hop hnot
  rw [accessAt, hdir] at hstep
  exact ⟨_, hstep, hstep.len.symm ▸ hat, hmoves.buf⟩

/-- A buffer with the bytes `got` at index `j` and on. -/
def overlay (buf : List Byte) (j : Nat) (got : List Byte) : List Byte := buf.take j ++ got ++ buf.drop (j + got.length)

@[simp] theorem overlay_nil (buf : List Byte) (j : Nat) : overlay buf j [] = buf := by simp [overlay]

/-- One captured byte, and then the others behind it. -/
theorem overlay_set {buf : List Byte} {j : Nat} (d : Byte) (got : List Byte) (hj : j < buf.length) :
    overlay (buf.set j d) (j + 1) got = overlay buf j (d :: got) := by
  have htake : (buf.set j d).take (j + 1) = buf.take j ++ [d] := by
    rw [List.take_succ_eq_append_getElem (by simpa using hj), List.take_set_of_le (Nat.le_refl j), List.getElem_set_self]
  have hdrop : (buf.set j d).drop (j + 1 + got.length) = buf.drop (j + (d :: got).length) := by
    rw [List.drop_set_of_lt (by omega), List.length_cons, Nat.add_assoc, Nat.add_comm 1]
  rw [overlay, overlay, htake, hdrop, List.append_assoc (buf.take j), List.singleton_append]

/-- The loop of R173 as equations: a poll, then the byte, the response and the request for the next one. -/
theorem receiveBytes_succ {c : Config} {n : Nat} {answers got rest : List Byte} {l : List PortAccess} {all : Bool}
    (h : receiveBytes c (n + 1) answers = some (l, got, all, rest)) :
    (pollStatus (rifVerdict c) answers = some (l, false, rest) ∧ got = [] ∧ all = false) ∨
      ∃ l₁ d rest₁ l₂ got', pollStatus (rifVerdict c) answers = some (l₁, true, d :: rest₁) ∧
        receiveBytes c n rest₁ = some (l₂, got', all, rest) ∧ got = d :: got' ∧
        l = l₁ ++ .read .data d :: .write .cmd 0x00 :: .write .cmd 0x02 :: l₂ := by
  rw [receiveBytes] at h
  cases hpoll : pollStatus (rifVerdict c) answers with
  | none => simp [hpoll] at h
  | some x =>
    obtain ⟨l₁, v, rest₁⟩ := x
    rw [hpoll] at h
    cases v with
    | false => cases h; exact .inl ⟨rfl, rfl, rfl⟩
    | true =>
      cases rest₁ with
      | nil => cases h
      | cons d rest₁ =>
        cases hrec : receiveBytes c n rest₁ with
        | none => simp [hrec] at h
        | some y =>
          obtain ⟨l₂, got', all', rest'⟩ := y
          simp only [hrec, Option.some.injEq, Prod.mk.injEq] at h
          obtain ⟨rfl, rfl, rfl, rfl⟩ := h
          exact .inr ⟨l₁, d, rest₁, l₂, got', rfl, hrec, rfl, rfl⟩

theorem afterRecvNext_atReceive {s : State} {n : Nat} (hn : s.k + (n + 1) = s.len) : AtReceive n s.afterRecvNext := by
  obtain ⟨hmore, h⟩ | ⟨hlast, h⟩ := afterRecvNext_cases s <;> rw [h]
  · exact .inr ⟨by omega, rfl, (Nat.add_right_comm s.k 1 n).trans hn⟩
  · exact .inl ⟨by omega, rfl⟩

/-- The three accesses of one byte of a READ, after its poll (R173). -/
theorem reaches_byte {s : State} {n : Nat} {d : Byte} {rest : List Byte} (h : OnPath s) (hr : s.resetIn = false)
    (hp : s.pos = .readData) (hn : s.k + (n + 1) = s.len) (ha : s.answers = d :: rest) :
    ∃ t, Reaches s t [.read .data d, .write .cmd 0x00, .write .cmd 0x02] rest ∧ AtReceive n t ∧
      t.buf = s.buf.set s.k d := by
  have hd : s.answer = d := answer_cons s d rest ha
  have hread := reaches_step (rest := rest) .readData h hr hp ⟨nofun, nofun, nofun⟩ (by simp [advanceFrom, ha])
  have hrespond := reaches_step (rest := rest) .respond hread.onPath (hread.resetIn.trans hr) rfl ⟨nofun, nofun, nofun⟩
    hread.answers
  have hboth := hread.trans hrespond
  have hmoves := afterRecvNext_moves ((advanceFrom (advanceFrom s .readData) .respond).portWrite .cmd 0x02)
  have hnext := reaches_step (rest := rest) .recvNext hboth.onPath (hboth.resetIn.trans hr) rfl ⟨nofun, nofun, nofun⟩
    (hmoves.answers.trans hboth.answers)
  have hall := hboth.trans hnext
  rw [accessAt, accessAt, accessAt, hd, advanceFrom] at hall
  refine ⟨_, hall, afterRecvNext_atReceive ?_, hmoves.buf.trans ?_⟩
  · simpa [advanceFrom] using hn
  · simp [advanceFrom, hd]

/-- Where the bytes of a READ lead: to STOP, or to the error exit (R173, R175). -/
def afterReceive (all : Bool) : Pos := if all then .issueStop else .enRestore (.err .arbitrationLost)

/-- The loop over a READ's bytes (R173): the captured bytes stand in the buffer. -/
theorem reaches_receiveBytes (n : Nat) {s : State} {l : List PortAccess} {got : List Byte} {all : Bool} {rest : List Byte}
    (h : OnPath s) (hr : s.resetIn = false) (hop : s.op = .read) (hat : AtReceive n s)
    (hrec : receiveBytes s.cfg n s.answers = some (l, got, all, rest)) :
    ∃ t, Reaches s t l rest ∧ t.pos = afterReceive all ∧ t.buf = overlay s.buf (s.len - n) got := by
  induction n generalizing s l got with
  | zero =>
    obtain ⟨-, hp⟩ | ⟨hne, -⟩ := hat
    · cases hrec
      exact ⟨s, .refl h, hp, (overlay_nil _ _).symm⟩
    · exact absurd rfl hne
  | succ n ih =>
    obtain ⟨-, hp, hn⟩ := hat.resolve_left fun hzero => nomatch hzero.1
    obtain ⟨hpoll, rfl, rfl⟩ | ⟨l₁, d, rest₁, l₂, got', hpoll, hrec', rfl, rfl⟩ := receiveBytes_succ hrec
    · obtain ⟨u, hu, hreach⟩ := reaches_poll (pollRead_polls _) h hr hp hpoll
      exact ⟨_, hreach, rfl, hu.buf.trans (overlay_nil _ _).symm⟩
    · obtain ⟨u, hu, hreach⟩ := reaches_poll (pollRead_polls _) h hr hp hpoll
      have hn' : u.k + (n + 1) = u.len := by rw [hu.k, hu.len, hn]
      obtain ⟨t, hbyte, hat', hbuf⟩ := reaches_byte hreach.onPath (hreach.resetIn.trans hr) rfl hn' hreach.answers
      have hboth := hreach.trans hbyte
      rw [← hboth.cfg, ← hboth.answers] at hrec'
      obtain ⟨t', hrest, hp', hbuf'⟩ := ih hboth.onPath (hboth.resetIn.trans hr) (hboth.op.trans hop) hat' hrec'
      refine ⟨t', by simpa using hboth.trans hrest, hp', ?_⟩
      have hbuf'' : t.buf = s.buf.set s.k d := hbuf.trans (by rw [← hu.buf, ← hu.k]; rfl)
      have hk : s.len - (n + 1) = s.k := by omega
      have hk' : t.len - n = s.k + 1 := by rw [hboth.len]; omega
      rw [hbuf', hbuf'', hk, hk', overlay_set d got' (by rw [h.bufLength hop]; omega)]

/-- `ISSUE_STOP` and `QUIESCE` of a READ (R175). -/
theorem reaches_quiesce {s : State} {qs rest : List Byte} (h : OnPath s) (hr : s.resetIn = false) (hop : s.op = .read)
    (hp : s.pos = .issueStop) (ha : s.answers = qs ++ rest) (hq : qs.length = s.cfg.quiesceReads) :
    ∃ t, Reaches s t (.write .cmd 0x03 :: qs.map fun b => .read .status b) rest ∧ t.pos = .enRestore .ok ∧ t.buf = s.buf := by
  obtain ⟨t, ht, hrun⟩ : ∃ t, t = _ ∧ run (1 + qs.length) s = .next t :=
    ⟨_, rfl, quiescenceReadsAreMade s qs rest hr hop hp ha hq⟩
  have hlen : (PortAccess.write .cmd 0x03 :: qs.map fun b => PortAccess.read .status b).length = 1 + qs.length := by
    simp [Nat.add_comm]
  refine ⟨t, ?_, by rw [ht], by rw [ht]⟩
  rw [← hlen] at hrun
  have hpath := onPath_of_run h hrun
  subst ht
  exact {
    cfg := rfl, op := rfl, addr := rfl, len := rfl, data := rfl, requests := rfl, delivered := rfl, resetIn := rfl
    trace := rfl, savedEn := rfl, answers := rfl, run := hrun, onPath := hpath }

/-- What follows the bytes of a READ: the accesses up to the exit, its result, the answers left (R173, R175). -/
inductive ReadTail (c : Config) (answers : List Byte) : Bool → List PortAccess → TxResult → List Byte → Prop
  | lost : ReadTail c answers false [] (.err .arbitrationLost) answers
  | stopped {qs rest : List Byte} (split : answers = qs ++ rest) (count : qs.length = c.quiesceReads) :
      ReadTail c answers true (.write .cmd 0x03 :: qs.map fun b => .read .status b) .ok rest

/-- The parts of a READ's transcript (R170). -/
theorem readTranscript_eq_some {c : Config} {a : Byte} {buffer answers : List Byte} {w : Transcript}
    (h : readTranscript c a buffer answers = some w) :
    ∃ e answers' l₀ rest₀ l₁ got all rest₁ l₂, answers = e :: answers' ∧
      pollStatus (idleVerdict c) answers' = some (l₀, (), rest₀) ∧
      receiveBytes c buffer.length rest₀ = some (l₁, got, all, rest₁) ∧ ReadTail c rest₁ all l₂ w.result w.rest ∧
      w.buffer = overlay buffer 0 got ∧
      w.accesses = transferAccesses e a .read l₀ (l₁ ++ l₂) := by
  rw [readTranscript] at h
  cases hacquire : busAcquire c answers with
  | none => simp [hacquire] at h
  | some x =>
    obtain ⟨e, la, rest₀⟩ := x
    obtain ⟨answers', l₀, rfl, hidle, rfl⟩ := busAcquire_eq_some hacquire
    cases hrec : receiveBytes c buffer.length rest₀ with
    | none => simp [hacquire, hrec] at h
    | some y =>
      obtain ⟨l₁, got, all, rest₁⟩ := y
      simp only [hacquire, hrec] at h
      suffices htail : ∃ l₂, ReadTail c rest₁ all l₂ w.result w.rest ∧ w.buffer = overlay buffer 0 got ∧
          w.accesses = transferAccesses e a .read l₀ (l₁ ++ l₂) by
        obtain ⟨l₂, htail, hbuf, hacc⟩ := htail
        exact ⟨e, answers', l₀, rest₀, l₁, got, all, rest₁, l₂, rfl, hidle, hrec, htail, hbuf, hacc⟩
      cases all with
      | false => cases h; exact ⟨[], .lost, by simp [overlay], by simp [transferAccesses]⟩
      | true =>
        rw [if_pos rfl] at h
        split at h
        next => cases h
        next henough =>
          cases h
          exact ⟨_, .stopped (List.take_append_drop c.quiesceReads rest₁).symm (List.length_take_of_le (by omega)),
            by simp [overlay], by simp [transferAccesses]⟩

/-- From the end of the bytes to the exit (R173, R175). -/
theorem reaches_readTail {s : State} {all : Bool} {l : List PortAccess} {r : TxResult} {rest : List Byte} (h : OnPath s)
    (hr : s.resetIn = false) (hop : s.op = .read) (hp : s.pos = afterReceive all)
    (htail : ReadTail s.cfg s.answers all l r rest) : ∃ t, Reaches s t l rest ∧ t.pos = .enRestore r ∧ t.buf = s.buf := by
  cases htail with
  | lost => exact ⟨s, .refl h, hp, rfl⟩
  | stopped split count => exact reaches_quiesce h hr hop hp split count

/-- Settles O55: the parts of the pseudocode, each reached from the one before it, between the acceptance and the exit. -/
theorem readRunsItsPseudocode : Obligations.ReadRunsItsPseudocode := by
  unfold Obligations.ReadRunsItsPseudocode
  intro s a bytes rest w hready hreq hfit hw
  obtain ⟨e, answers', l₀, rest₀, l₁, got, all, rest₁, l₂, hanswers, hidle, hrec, htail, hbuffer, hacc⟩ :=
    readTranscript_eq_some hw
  have hd := decodeRequest_read a hfit
  obtain ⟨t₁, h₁, hp₁, hbuf₁⟩ := reaches_entry hready hd rfl hanswers hidle
  obtain ⟨t₂, h₂, hat₂, hbuf₂⟩ := reaches_receive h₁.onPath (h₁.resetIn.trans hready.noReset) hp₁ h₁.op
  have h₁₂ := h₁.trans h₂
  have hcfg₂ : t₂.cfg = s.cfg := h₁₂.cfg
  have hlen₂ : t₂.len = bytes.length := h₁₂.len
  rw [← hcfg₂, ← h₁.answers, ← h₂.answers, ← hlen₂] at hrec
  obtain ⟨t₃, h₃, hp₃, hbuf₃⟩ :=
    reaches_receiveBytes t₂.len h₁₂.onPath (h₁₂.resetIn.trans hready.noReset) h₁₂.op hat₂ hrec
  have h₁₃ := h₁₂.trans h₃
  have hcfg₃ : t₃.cfg = s.cfg := h₁₃.cfg
  rw [← hcfg₃, ← h₃.answers] at htail
  obtain ⟨t₄, h₄, hp₄, hbuf₄⟩ := reaches_readTail h₁₃.onPath (h₁₃.resetIn.trans hready.noReset) h₁₃.op hp₃ htail
  have hall := h₁₃.trans h₄
  have haddr : t₁.addr = a := h₁.addr
  have hop : t₄.op = .read := hall.op
  have hbuf : t₄.buf = w.buffer := by
    rw [hbuf₄, hbuf₃, hbuf₂, hbuf₁, hbuffer, Nat.sub_self]
    rfl
  have hfinal := transaction_of_reaches hready hreq hd rfl hall hp₄
    (by simp [hacc, transferAccesses, answer_cons s e answers' hanswers, haddr])
  simpa [State.delivery, hop, hbuf] using hfinal

end Sys2Proof.Proofs

/-! PROOFS of 60_exceptions.md: the error exit (R195). `EN_RESTORE` and `finish(r)` are the two steps of every exit
(`run_exit`), and the error exit is the one that `raise` enters. -/

namespace Sys2Proof.Proofs

open Sys2Proof.Machine Sys2Proof.Safety

/-- The step of a completion is `finish`, off the path too, where `stepRunning_complete` says nothing: all it takes is an index
that fits, without which the result has no row (30_encoding.md R74). -/
theorem stepRunning_complete_of_fits {s : State} {r : TxResult} (hp : s.pos = .complete r)
    (hfit : lengthFits s.cfg (resultIndex r) = true) : stepRunning s = .next (s.finish r) := by
  have hm : s.message = some (encodeResult r) := by simp [State.message, hp]
  obtain ⟨i, hd, he⟩ := decode_encodeResult hfit
  exact stepRunning_of_exec (fetch_message hm hd) (he s) rfl

/-- The exit with result `r`, in any state: one step restores CTRLA (41_bus_primitives.md R122), the next is `finish(r)`
(42_transactions.md R151). -/
theorem run_exit {s : State} {r : TxResult} (hr : s.resetIn = false) (hp : s.pos = .enRestore r)
    (hfit : lengthFits s.cfg (resultIndex r) = true) :
    run 2 s = .next (((s.portWrite .ctrla s.savedEn).goto (.complete r)).finish r) := by
  have hrestore : step s = .next ((s.portWrite .ctrla s.savedEn).goto (.complete r)) := by
    rw [step_running s hr, stepRunning_enRestore hp, advance_at hp, advanceFrom]
  have hfinish := stepRunning_complete_of_fits (s := (s.portWrite .ctrla s.savedEn).goto (.complete r)) rfl hfit
  have hstep := (step_running ((s.portWrite .ctrla s.savedEn).goto (.complete r)) hr).trans hfinish
  rw [run_of_step 1 hrestore, run_of_step 0 hstep, run]

/-- Settles O40: `raise e` stands at the exit with result `Err(e)`, and the exit's two steps follow. -/
theorem errorExitRestoresAndDelivers : Obligations.ErrorExitRestoresAndDelivers := by
  unfold Obligations.ErrorExitRestoresAndDelivers
  intro s e hr hfit
  exact run_exit (s := s.raise e) hr rfl hfit

end Sys2Proof.Proofs

/-! PROOFS of 70_reset_and_hazards.md: the polls have no bound (R230), and a reset abandons the request (R220). A poll is one
status read per step whichever of the three it is (`step_of_pollGoesOn`), so one induction over the answers serves them all. -/

namespace Sys2Proof.Proofs

open Sys2Proof.Machine Sys2Proof.Safety

/-! ### The polls (R230) -/

/-- The block stands at a poll that the status byte `b` does not end (41_bus_primitives.md R124, R126; 42_transactions.md R173).
It depends on the parameters, the operation and the position alone, which a status read leaves. -/
def pollGoesOn (s : State) (b : Byte) : Prop :=
  (s.pos = .waitIdle ∧ transferring s ∧ busState s.cfg b ≠ .ok .idle) ∨
    (s.pos = .waitWif ∧ s.op = .write ∧ wif s.cfg b = false) ∨
    (s.pos = .pollRead ∧ s.op = .read ∧ arbitrationLost s.cfg b = false ∧ rif s.cfg b = false)

/-- A byte that does not end the poll is read, and the block stands where it stood. -/
theorem step_of_pollGoesOn {s : State} {b : Byte} {rest : List Byte} (hr : s.resetIn = false) (ha : s.answers = b :: rest)
    (hb : pollGoesOn s b) :
    step s = .next
      { s with snap := b, answers := rest, draws := s.draws + 1, trace := s.trace ++ [.read .status b] } := by
  obtain ⟨hp, ht, hbusy⟩ | ⟨hp, hop, hclear⟩ | ⟨hp, hop, hkept, hclear⟩ := hb
  · exact (waitIdleStep s b rest hr ht hp ha).trans (congrArg _ (if_neg hbusy))
  · exact (waitWifStepClassifies s b rest hr hop hp ha).trans (congrArg _ (if_pos hclear))
  · refine (readPollStep s b rest hr hop hp ha).trans (congrArg _ ?_)
    exact (if_neg (by simp [hkept])).trans (if_neg (by simp [hclear]))

/-- As many steps as there are bytes that do not end the poll read them all. -/
theorem run_of_pollGoesOn {s : State} (l : List Byte) {rest : List Byte} (hr : s.resetIn = false) (ha : s.answers = l ++ rest)
    (hl : ∀ b ∈ l, pollGoesOn s b) :
    run l.length s = .next { s with
      snap := l.getLastD s.snap
      answers := rest
      draws := s.draws + l.length
      trace := s.trace ++ l.map (fun b => PortAccess.read .status b) } := by
  induction l generalizing s with
  | nil =>
    have hrest : s.answers = rest := ha
    simp [run, ← hrest]
  | cons b l ih =>
    obtain ⟨hb, htail⟩ := List.forall_mem_cons.mp hl
    rw [List.length_cons, run_of_step _ (step_of_pollGoesOn hr ha hb)]
    refine (ih ?_ ?_ ?_).trans ?_
    · exact hr
    · rfl
    · exact htail
    · simp [List.getLast?_cons, Nat.add_assoc, Nat.add_comm 1]

/-! ### The obligations -/

/-- Settles O39: at each of the three polls no byte of the list ends it, and `run_of_pollGoesOn` is the loop. -/
theorem pollsAreUnbounded : Obligations.PollsAreUnbounded := by
  unfold Obligations.PollsAreUnbounded
  intro s l rest hr ha hpoll
  refine run_of_pollGoesOn l hr ha fun b hb => ?_
  obtain ⟨hp, ht, hl⟩ | ⟨hp, hop, hl⟩ | ⟨hp, hop, hl⟩ := hpoll
  · exact .inl ⟨hp, ht, hl b hb⟩
  · exact .inr (.inl ⟨hp, hop, hl b hb⟩)
  · exact .inr (.inr ⟨hp, hop, hl b hb⟩)

/-- Settles O41: with reset asserted the step is `applyReset` (log 8), and the fields are the `applyReset` lemmas of State. -/
theorem resetAbandonsTheRequest : Obligations.ResetAbandonsTheRequest := by
  unfold Obligations.ResetAbandonsTheRequest
  intro s hr
  refine ⟨s.applyReset, step_reset s hr, ?_⟩
  simp

end Sys2Proof.Proofs
